-- ==== Sys2Proof/Word.lean ====
section
/-! DEFINITION. Words of the bus, bytes and 64-byte lines (spec/00_scope.md section 5), and the indexes of the part's blocks. -/

namespace Sys2Proof

/-- A word is 32 bits; tallies and sequences count modulo 2^32 (spec/00_scope.md section 5). -/
abbrev Word := BitVec 32

abbrev Byte := BitVec 8

/-- The 64 bytes of one stroke, lowest address first. -/
abbrev Line := Vector Byte 64

/-- Lanes 0 to 3 (R51, R70). -/
abbrev Lane := Fin 4

/-- Banks 0 to 7 (R90). -/
abbrev BankId := Fin 8

/-- Regions 0 to 63, numbered bank × 8 + segment (R90). -/
abbrev RegionId := Fin 64

/-- Power domains D0 to D3 (spec/09 section 9.1). -/
abbrev DomainId := Fin 4

/-- The 16 slots of the Order Pool (R48). -/
abbrev SlotId := Fin 16

/-- The 8 stroke buffers (R97). -/
abbrev BufferId := Fin 8

end Sys2Proof
end

