-- ==== Sys2Proof/Syntax.lean ====
section
/-! DEFINITION. The commands of the PT-418: one constructor per row of spec/opcode_table.json, with the operands the rules give its event. -/

namespace Sys2Proof

/-- The temperature class the sensor reports (R145). -/
inductive TempClass where
  | normal
  | warm
  | hot
  deriving DecidableEq, Repr

/-- How many more bits of one stored 8-byte word (or its check code) have come to differ from what was written: the stored cells decide it, not the part (R107, log 13). -/
inductive Disturbance where
  | clean
  | oneBit
  | moreBits
  deriving DecidableEq, Repr

/-- The eight words of a stroke. -/
abbrev LineDisturbance := Vector Disturbance 8

/-- Words 0 to 5 of an order entry, as one entry read returns them (R5, R38). -/
structure EntryWords where
  word0 : Word
  word1 : Word
  word2 : Word
  word3 : Word
  word4 : Word
  word5 : Word
  deriving DecidableEq, Repr

/-- Width of a register access (R180). -/
inductive AccessSize where
  | byte
  | half
  | word
  deriving DecidableEq, Repr

/-- The tick interval of a bank that expires, by its number (R135, R139, log 36). -/
structure TickDue where
  bank : BankId
  interval : Nat
  deriving DecidableEq, Repr

/-- One command per row of the opcode table.
`v` is the word written to the register. `tag` is the tag a bus response carries (R187). -/
inductive Instr where
  /-- POWER_ON_RESET (R194) -/
  | powerOnReset
  /-- PIN_RESET: RESET_N has been held asserted for 1 µs (R194) -/
  | pinReset
  /-- RESET_N_RELEASE (R194) -/
  | resetNRelease
  /-- ENGINE_RESET: a CONTROL write with ENGINE_RESET 1 (R194, R182) -/
  | engineReset (v : Word)
  /-- ENGINE_ENABLE: a CONTROL write with ENABLE 1 (R189, R192) -/
  | engineEnable (v : Word)
  /-- ENGINE_DISABLE: a CONTROL write with ENABLE 0 (R191) -/
  | engineDisable (v : Word)
  /-- POLL_SET: a CONTROL write, for its POLL field (R28) -/
  | pollSet (v : Word)
  /-- IDLE_SLEEP_SET: a CONTROL write, for its IDLE_SLEEP field (R174) -/
  | idleSleepSet (v : Word)
  /-- RESPONSE_SET: a CONTROL write, for its RESPONSE field (R182) -/
  | responseSet (v : Word)
  /-- EXBASE_WRITE (R182) -/
  | exbaseWrite (v : Word)
  /-- NUDGE (R29) -/
  | nudge (v : Word)
  /-- CANCEL of sequence `q` (R59) -/
  | cancel (q : Word)
  /-- EVENTS_WRITE (R184) -/
  | eventsWrite (v : Word)
  /-- REGISTER_WRITE_OTHER: a write the window ignores (R180) -/
  | registerWriteOther (offset : BitVec 5) (size : AccessSize) (v : Word)
  /-- POLL_TIMER_EXPIRY (R28) -/
  | pollTimerExpiry
  /-- ACCESS_ISSUE (R186) -/
  | accessIssue
  /-- RESPONSE_LIMIT_EXPIRY (R187) -/
  | responseLimitExpiry
  /-- STALE_RESPONSE_DISCARD (R187) -/
  | staleResponseDiscard (tag : Nat)
  /-- START_READ_COMPLETE with header words 0 and 1 (R190) -/
  | startReadComplete (tag : Nat) (posted firstPage : Word)
  /-- START_READ_FAIL (R190) -/
  | startReadFail (tag : Nat)
  /-- TALLY_READ_COMPLETE with POSTED (R31) -/
  | tallyReadComplete (tag : Nat) (posted : Word)
  /-- NEXT_READ_COMPLETE with NEXT (R35) -/
  | nextReadComplete (tag : Nat) (next : Word)
  /-- FIRST_SEQ_READ_COMPLETE with FIRST_SEQ (R36) -/
  | firstSeqReadComplete (tag : Nat) (firstSeq : Word)
  /-- ENTRY_READ_COMPLETE with words 0 to 5 (R38) -/
  | entryReadComplete (tag : Nat) (entry : EntryWords)
  /-- INTAKE_READ_FAIL (R44) -/
  | intakeReadFail (tag : Nat)
  /-- STALLED_POOL_END (R42) -/
  | stalledPoolEnd
  /-- STALLED_PAGES_END (R43) -/
  | stalledPagesEnd
  /-- RESULT_WRITE_COMPLETE (R12) -/
  | resultWriteComplete (tag : Nat)
  /-- ESTATE_WRITE_COMPLETE (R14) -/
  | estateWriteComplete (tag : Nat)
  /-- HEADER_UPDATE_COMPLETE (R17) -/
  | headerUpdateComplete (tag : Nat)
  /-- RELEASE_REQUEST (R19) -/
  | releaseRequest
  /-- RELEASE_WRITE_COMPLETE (R20) -/
  | releaseWriteComplete (tag : Nat)
  /-- REPORT_ACCESS_FAIL (R193) -/
  | reportAccessFail (tag : Nat)
  /-- DATA_ACCESS_FAIL (R188) -/
  | dataAccessFail (tag : Nat)
  /-- ENGINE_DRAINED (R191) -/
  | engineDrained
  /-- PROMOTION of a lane's head (R54) -/
  | promotion (lane : Lane)
  /-- START_TEST of a lane's entry (R80) -/
  | startTest (lane : Lane)
  /-- MARK_FINISH of a lane's entry (R58) -/
  | markFinish (lane : Lane)
  /-- STOPPING_END of a lane's entry (R85) -/
  | stoppingEnd (lane : Lane)
  /-- BUFFER_GRANT (R98) -/
  | bufferGrant
  /-- STROKE_ISSUE of a lane's generator (R95) -/
  | strokeIssue (lane : Lane)
  /-- LOAD_HOST_READ_COMPLETE with the 64 bytes read (R101) -/
  | loadHostReadComplete (tag : Nat) (data : Line)
  /-- FETCH_HOST_WRITE_COMPLETE (R102) -/
  | fetchHostWriteComplete (tag : Nat)
  /-- BANK_ARBITER_DECISION (R118) -/
  | bankArbiterDecision (bank : BankId)
  /-- BANK_OPEN_COMPLETE (R115) -/
  | bankOpenComplete (bank : BankId)
  /-- BANK_ACCESS_COMPLETE with what the cells have lost since they were last read (R124, R107) -/
  | bankAccessComplete (bank : BankId) (disturbed : LineDisturbance)
  /-- BANK_CLOSE_COMPLETE (R115) -/
  | bankCloseComplete (bank : BankId)
  /-- REFRESH_COMPLETE (R137) -/
  | refreshComplete (bank : BankId)
  /-- TICK: the interval that expires (R136, R139) -/
  | tick (due : TickDue)
  /-- SAMPLE_TIMER_EXPIRY with the class the sensor reports (R145) -/
  | sampleTimerExpiry (reported : TempClass)
  /-- SWITCH_TAKE (R168) -/
  | switchTake
  /-- RAMP_UP_COMPLETE (R169) -/
  | rampUpComplete
  /-- DRAIN_START (R170) -/
  | drainStart
  /-- RAMP_DOWN_COMPLETE (R170) -/
  | rampDownComplete
  /-- IDLE_TIMER_EXPIRY (R174) -/
  | idleTimerExpiry
  /-- SLEEP_ENTRY_COMPLETE (R175) -/
  | sleepEntryComplete
  /-- WAKE_TIMER_EXPIRY (R176) -/
  | wakeTimerExpiry
  deriving DecidableEq, Repr

end Sys2Proof
end

