-- ==== Sys2Proof/Decode.lean ====
section
/-! DEFINITION. Reading a command from a word. No row of spec/opcode_table.json gives bits (its rows carry neither "fixed" nor "fields"), so no word spells a command. -/

namespace Sys2Proof

/-- The command that the `nbits`-bit word `w` spells by the table's bits: none, since no row gives bits. -/
def decodeTableWord (_nbits _w : Nat) : Option Instr := none

end Sys2Proof
end

