-- ==== Sys2Proof/Config.lean ====
section
/-! DEFINITION. The fixed figures of the PT-418 (spec/00_scope.md section 7) by name. Nothing here is left open by the manual; the model needs no free value. -/

namespace Sys2Proof.Config

/-- Bytes of the array (R90). -/
def arrayBytes : Nat := 268435456
/-- Bytes of one bank's row (R90). -/
def rowBytes : Nat := 2048
/-- Consecutive array addresses of one row over all eight banks (R90). -/
def rowSpan : Nat := 16384
/-- Consecutive array addresses of one segment over all eight banks (R75, R90). -/
def segmentSpan : Nat := 33554432
/-- Bytes of a stroke (R90). -/
def strokeBytes : Nat := 64
/-- Strokes of a region's arming sweep (R150). -/
def sweepStrokes : Nat := 65536
/-- Bytes of a region (R90). -/
def regionBytes : Nat := 4194304
/-- Smallest and largest LENGTH (R72). -/
def minLength : Nat := 64
def maxLength : Nat := 16777216
/-- The exclusive end of host addresses (R72 check 6). -/
def hostSpan : Nat := 4294967296
/-- Page records held at most (R41). -/
def maxRecords : Nat := 4
/-- Entry slots of an order page (R4). -/
def pageSlots : Nat := 15
/-- Places of the cancel list (R61). -/
def maxCancels : Nat := 4
/-- Strokes of one order in flight at most (R93). -/
def maxInFlight : Nat := 4
/-- The hit streak's limit (R120). -/
def streakLimit : Nat := 16
/-- The refresh account's ceiling and floor (R133). -/
def accountCeiling : Int := 8
def accountFloor : Int := -8
/-- Where DUE begins (R117). -/
def accountDue : Int := 4
/-- The saturation of CORRECTED (R108). -/
def maxCorrected : Nat := 65535
/-- Row groups of a segment: refreshes owed per window and retained segment (R135). -/
def rowGroups : Nat := 128
/-- Nominal settle, drain and wake times in µs (R169, R170, R176). -/
def rampUpUs : Nat := 40
def rampDownUs : Nat := 10
def wakeUs : Nat := 150

end Sys2Proof.Config
end

