-- ==== Sys2Proof/Machine/State.lean ====
section
/-! DEFINITION. The state of the PT-418, block by block as spec/00_scope.md section 3 lists them, the reasons a step can stop, and the machine after power-on reset. -/

namespace Sys2Proof.Machine

/-- Engine states (R181, section 10.5). -/
inductive EngineState where
  | disabled
  | starting
  | running
  | draining
  | halted
  deriving DecidableEq, Repr

/-- Halt reasons (R181, R183). -/
inductive HaltReason where
  | noReason
  | start
  | reportBus
  deriving DecidableEq, Repr

/-- Statuses of a CANCEL write (R59). -/
inductive CancelStatus where
  | noWrite
  | accepted
  | applied
  | missed
  | refusedFull
  | refusedState
  deriving DecidableEq, Repr

/-- Registers of the System Port that are not views of another block (R181), and RESET_N (R180). -/
structure PortRegs where
  enable : Bool
  poll : BitVec 2
  idleSleep : BitVec 3
  response : BitVec 3
  /-- EXBASE bits 31:6 -/
  exbase : BitVec 26
  cancelStatus : CancelStatus
  notifyPending : Bool
  alertPending : Bool
  faultPending : Bool
  drainedPending : Bool
  notifyEnable : Bool
  alertEnable : Bool
  faultEnable : Bool
  drainedEnable : Bool
  /-- from the event a pin reset is taken until RESET_N is released (R180) -/
  resetHeld : Bool
  deriving DecidableEq, Repr

/-- The engine state machine (R183). -/
structure EngineRegs where
  state : EngineState
  haltReason : HaltReason
  deriving DecidableEq, Repr

/-- The intake's read steps (R23). -/
inductive ReadStep where
  | tally
  | next
  | header
  | entry
  deriving DecidableEq, Repr

/-- What names one stroke: its order's lane and sequence, and its index (R95). -/
structure StrokeId where
  lane : Lane
  seq : Word
  index : Nat
  deriving DecidableEq, Repr

/-- Requests of the master channel (R185). -/
inductive Request where
  /-- result write of the order in a slot (R12) -/
  | result (slot : SlotId)
  /-- ESTATE write of the order in a slot (R13) -/
  | estate (slot : SlotId)
  /-- header update (R15) -/
  | headerUpdate
  /-- release write of the oldest page record (R20) -/
  | release
  /-- the engine start read (R189) -/
  | startRead
  /-- an intake read (R31, R35, R36, R38) -/
  | intakeRead (step : ReadStep)
  /-- LOAD host read (R101) -/
  | hostRead (stroke : StrokeId)
  /-- FETCH host write (R102) -/
  | hostWrite (stroke : StrokeId)
  deriving DecidableEq, Repr

/-- What an access carries: the length of a read, or the data of a write. -/
inductive Payload where
  | read (bytes : Nat)
  | writeWords (words : List Word)
  | writeLine (data : Line)
  deriving DecidableEq, Repr

/-- The stage of the outstanding access (R187). -/
inductive Stage where
  | first
  | reissued
  deriving DecidableEq, Repr

/-- The access outstanding on the bus (R186, R187). -/
structure Access where
  request : Request
  tag : Nat
  address : Word
  payload : Payload
  stage : Stage
  /-- its response limit in µs, fixed at issue (R186) -/
  limitUs : Nat
  /-- the carries-notify mark of a header update (R18) -/
  carriesNotify : Bool
  deriving DecidableEq, Repr

/-- The master channel (section 10.4). -/
structure Channel where
  /-- requests in the order they joined -/
  queue : List Request
  outstanding : Option Access
  /-- the tag the next access takes (log 11) -/
  nextTag : Nat
  deriving DecidableEq, Repr

/-- The reporting logic (R9, R16, R18, R19). -/
structure Reporting where
  headerPending : Bool
  notifyOwed : Bool
  releaseInProgress : Bool
  released : Word
  deriving DecidableEq, Repr

/-- Intake states (R3, R23). -/
inductive IntakeState where
  | off
  | watch
  | reading
  | stalledPool
  | stalledPages
  | broken
  deriving DecidableEq, Repr

/-- Intake fault reasons (R24). -/
inductive IntakeFault where
  | noFault
  | tally
  | noNext
  | pageMismatch
  | entryMismatch
  | bus
  deriving DecidableEq, Repr

/-- A page record (R41). `serial` is the reference a slot holds to it (log 16). -/
structure PageRecord where
  serial : Nat
  address : Word
  takenCount : Nat
  finishedCount : Nat
  left : Bool
  deriving DecidableEq, Repr

/-- The Order Intake (R23). -/
structure Intake where
  state : IntakeState
  readStep : Option ReadStep
  expected : Word
  target : Word
  currentPage : Word
  pageEntered : Bool
  nextSlot : Nat
  candidate : Word
  /-- oldest first -/
  records : List PageRecord
  nudgePending : Bool
  /-- the interval in µs while running -/
  pollTimer : Option Nat
  faultReason : IntakeFault
  failedStep : Option ReadStep
  /-- the INTAKE read outstanding was outstanding at a disable: its result is discarded (R26, R27, log 19) -/
  readAbandoned : Bool
  nextSerial : Nat
  deriving DecidableEq, Repr

/-- Lifecycle states of a taken order (R53). -/
inductive Lifecycle where
  | queued
  | waiting
  | running
  | stopping
  | reporting
  deriving DecidableEq, Repr

/-- Stop causes (R84). -/
inductive StopCause where
  | cancelled
  | dataError
  | regionLost
  | regionDropped
  | hostBusFault
  deriving DecidableEq, Repr

/-- Outcome codes (R86). -/
inductive OutcomeCode where
  | ok
  | okCorrected
  | dataError
  | badOrder
  | cancelled
  | regionDropped
  | regionLost
  | domainOff
  | hostBusFault
  deriving DecidableEq, Repr

/-- An occupied pool slot (R48). -/
structure PoolOrder where
  entry : EntryWords
  pageSerial : Nat
  pageAddress : Word
  entrySlot : Nat
  life : Lifecycle
  cancelMark : Bool
  stopCause : Option StopCause
  outcome : Option OutcomeCode
  reason : Nat
  corrected : Nat
  done : Nat
  deriving DecidableEq, Repr

/-- The Order Pool (R48 to R52, R59, R61). -/
structure Pool where
  slots : Vector (Option PoolOrder) 16
  queues : Vector (List SlotId) 4
  taken : Word
  finished : Word
  oldestOpen : Word
  cancelList : List Word
  deriving DecidableEq, Repr

/-- Why a WAITING entry waits (R70). -/
inductive WaitReason where
  | interlock
  | array
  | earlier
  deriving DecidableEq, Repr

/-- An array interval [base, base + length) of a footprint, marked read or write (R74). -/
structure ArrayInterval where
  base : Nat
  length : Nat
  write : Bool
  deriving DecidableEq, Repr

/-- A footprint: up to two intervals and a set of regions, in ascending order (R70, R74).
`whole` marks a footprint of whole regions, RETAIN's and POWER's, whose regions are all written. -/
structure Footprint where
  intervals : List ArrayInterval
  regions : List RegionId
  whole : Bool
  deriving DecidableEq, Repr

/-- An entry of the Active Order Table that is not EMPTY (R70); its state is its slot's lifecycle state. -/
structure TableEntry where
  slot : SlotId
  wait : Option WaitReason
  footprint : Option Footprint
  started : Bool
  deriving DecidableEq, Repr

/-- A stroke generator (R92); what is in flight is counted from the in-flight stroke records. -/
structure Generator where
  nextStroke : Nat
  strokeCount : Nat
  issuing : Bool
  prefixLen : Nat
  /-- strokes after the prefix that completed -/
  ahead : List Nat
  barrier : Option Nat
  /-- the arming list of a RETAIN KEEP (R155); empty for a data order -/
  armingList : List RegionId
  deriving DecidableEq, Repr

/-- What kind of order a stroke belongs to (R95). -/
inductive StrokeKind where
  | load
  | fetch
  | copy
  | fill
  | scrub
  | arming
  deriving DecidableEq, Repr

/-- The step a stroke is at (R101 to R105). -/
inductive Phase where
  | hostReading
  | arrayReading
  | arrayWriting
  | hostWriting
  | scrubbing
  deriving DecidableEq, Repr

/-- An in-flight stroke record (R95). `corrected` is the CORRECTED(n) of its read (R108). -/
structure StrokeRecord where
  id : StrokeId
  kind : StrokeKind
  /-- its first array place -/
  place : Nat
  hostPlace : Word
  /-- the second array place of a COPY -/
  destPlace : Nat
  buffer : Option BufferId
  phase : Phase
  corrected : Nat
  deriving DecidableEq, Repr

/-- A held stroke buffer (R97). -/
structure BufferHold where
  holder : StrokeId
  data : Option Line
  deriving DecidableEq, Repr

/-- The Stroke Engine (R92, R95, R97). -/
structure StrokeEngine where
  generators : Vector (Option Generator) 4
  records : List StrokeRecord
  buffers : Vector (Option BufferHold) 8
  lastGranted : Lane
  deriving DecidableEq, Repr

/-- Bank states (R114). -/
inductive BankState where
  | unpowered
  | asleep
  | idle
  | opening
  | opened
  | accessing
  | closing
  | refreshing
  deriving DecidableEq, Repr

/-- Kinds of bank request (R100); a WRITE carries its 64 bytes (log 15). -/
inductive BankRequestKind where
  | read
  | write (data : Line)
  | scrub
  deriving DecidableEq, Repr

/-- A bank request (R116); its join position is its place in the pending set. `stroke` is the stroke that placed it, none once a reset has abandoned it. -/
structure BankRequest where
  seq : Word
  row : BitVec 14
  column : BitVec 5
  kind : BankRequestKind
  stroke : Option StrokeId
  deriving DecidableEq, Repr

/-- A row group of a bank: group `g` is rows 16g to 16g + 15, and lies in segment g / 128 (R115). -/
abbrev RowGroup := Fin 1024

/-- A Bank Controller (R114). -/
structure Bank where
  state : BankState
  openRow : Option (BitVec 14)
  /-- the pending set, in join order -/
  requests : List BankRequest
  inHand : Option BankRequest
  streak : Nat
  sleepHold : Bool
  standDown : Bool
  /-- the row group that the refresh under way, or the last one, refreshes (R115, log 31) -/
  rowGroup : Option RowGroup
  deriving DecidableEq, Repr

/-- A tick interval of length windowMs / groups milliseconds, fixed when it begins (R135). -/
structure TickInterval where
  windowMs : Nat
  groups : Nat
  deriving DecidableEq, Repr

/-- The Refresh Unit's state of one bank (R133). -/
structure RefreshBank where
  account : Int
  k : Nat
  timer : Option TickInterval
  void : Bool
  /-- the number of the tick interval last begun (R139, log 36) -/
  interval : Nat
  deriving DecidableEq, Repr

/-- The Refresh Unit (R133). -/
structure RefreshUnit where
  banks : Vector RefreshBank 8
  tempClass : TempClass
  sampleTimer : Bool
  breaches : Word
  deriving DecidableEq, Repr

/-- Region states (R150). -/
inductive RegionState where
  | off
  | dropped
  | arming
  | kept
  | lost
  deriving DecidableEq, Repr

/-- The lane and sequence that name an order in the table. -/
structure OrderName where
  lane : Lane
  seq : Word
  deriving DecidableEq, Repr

/-- A region record (R150). -/
structure Region where
  state : RegionState
  owner : Option OrderName
  sweep : Nat
  deriving DecidableEq, Repr

/-- Domain states (R3, R166). -/
inductive DomainState where
  | off
  | rampingUp
  | on
  | rampingDown
  deriving DecidableEq, Repr

/-- A request on the domain request list (R166). -/
structure DomainRequest where
  domain : DomainId
  on : Bool
  order : OrderName
  deriving DecidableEq, Repr

/-- Phases of the switch controller (R166). -/
inductive SwitchPhase where
  | rising
  | standingDown
  | falling
  deriving DecidableEq, Repr

/-- The request the switch controller serves (R166), with the stood-down marks of the domain's lower and upper bank. -/
structure Served where
  domain : DomainId
  on : Bool
  owner : Option OrderName
  phase : SwitchPhase
  lowerDown : Bool
  upperDown : Bool
  deriving DecidableEq, Repr

/-- The Domain Controller (R166); `serving` none is the switch controller IDLE. -/
structure DomainControl where
  states : Vector DomainState 4
  requests : List DomainRequest
  serving : Option Served
  /-- µs of the ramp under way -/
  rampTimer : Option Nat
  deriving DecidableEq, Repr

/-- Array modes (R3, R173). -/
inductive ArrayMode where
  | run
  | enteringSleep
  | asleep
  | waking
  deriving DecidableEq, Repr

/-- The Array Mode logic (R173). -/
structure ModeLogic where
  mode : ArrayMode
  /-- the interval in µs while running -/
  idleTimer : Option Nat
  wakeTimer : Option Nat
  forcedSleep : Bool
  deriving DecidableEq, Repr

/-- The DRAM array (R90, R107): the bytes as last written, by array address, and the 8-byte words (by address / 8) that no longer hold what was written (log 12, 13). -/
structure ArrayCells where
  bytes : List Host.Cell
  disturbed : List (Nat × Disturbance)
  deriving DecidableEq, Repr

/-- The whole state. -/
structure State where
  port : PortRegs
  engine : EngineRegs
  channel : Channel
  reporting : Reporting
  intake : Intake
  pool : Pool
  table : Vector (Option TableEntry) 4
  strokes : StrokeEngine
  banks : Vector Bank 8
  refresh : RefreshUnit
  regions : Vector Region 64
  domains : DomainControl
  arrayMode : ModeLogic
  array : ArrayCells
  /-- the commands waiting, first in, first out -/
  pending : List Instr
  deriving DecidableEq, Repr

/-- A step never ends in a fault: the part reports its failures in its own state (log 2). -/
inductive Fault where
  deriving DecidableEq, Repr

/-- Reasons a command is refused. -/
inductive Refusal where
  /-- raised by `exec` alone, for a command that has no meaning yet; safe. No arm raises it. -/
  | notModelled (mnemonic : String)
  deriving DecidableEq, Repr

/-- What a meaning answers. -/
abbrev Outcome := Host.Outcome State Fault Refusal

/-- The registers' reset values (R181, R184). -/
def PortRegs.reset : PortRegs where
  enable := false
  poll := 2
  idleSleep := 2
  response := 3
  exbase := 0
  cancelStatus := .noWrite
  notifyPending := false
  alertPending := false
  faultPending := false
  drainedPending := false
  notifyEnable := false
  alertEnable := false
  faultEnable := false
  drainedEnable := false
  resetHeld := false

def EngineRegs.reset : EngineRegs := { state := .disabled, haltReason := .noReason }

def Channel.reset : Channel := { queue := [], outstanding := none, nextTag := 0 }

/-- R22. -/
def Reporting.reset : Reporting :=
  { headerPending := false, notifyOwed := false, releaseInProgress := false, released := 0 }

/-- R47. -/
def Intake.reset : Intake where
  state := .off
  readStep := none
  expected := 0
  target := 0
  currentPage := 0
  pageEntered := false
  nextSlot := 0
  candidate := 0
  records := []
  nudgePending := false
  pollTimer := none
  faultReason := .noFault
  failedStep := none
  readAbandoned := false
  nextSerial := 0

/-- R69. -/
def Pool.reset : Pool where
  slots := Vector.replicate 16 none
  queues := Vector.replicate 4 []
  taken := 0
  finished := 0
  oldestOpen := 0
  cancelList := []

/-- R113. -/
def StrokeEngine.reset : StrokeEngine where
  generators := Vector.replicate 4 none
  records := []
  buffers := Vector.replicate 8 none
  lastGranted := 3

/-- R132. -/
def Bank.reset : Bank where
  state := .unpowered
  openRow := none
  requests := []
  inHand := none
  streak := 0
  sleepHold := false
  standDown := false
  rowGroup := none

/-- R148. -/
def RefreshUnit.reset : RefreshUnit where
  banks := Vector.replicate 8 { account := 0, k := 0, timer := none, void := false, interval := 0 }
  tempClass := .normal
  sampleTimer := true
  breaches := 0

/-- R165. -/
def Region.reset : Region := { state := .off, owner := none, sweep := 0 }

/-- R172. -/
def DomainControl.reset : DomainControl where
  states := Vector.replicate 4 .off
  requests := []
  serving := none
  rampTimer := none

/-- R178: RUN, with the idle timer started at the end of the reset with code 2, 1 ms. -/
def ModeLogic.reset : ModeLogic :=
  { mode := .run, idleTimer := some 1000, wakeTimer := none, forcedSleep := false }

/-- After power-on reset no stored word is kept (R113). -/
def ArrayCells.reset : ArrayCells := { bytes := [], disturbed := [] }

/-- The machine after power-on reset (R194), with no command waiting. -/
def State.reset : State where
  port := PortRegs.reset
  engine := EngineRegs.reset
  channel := Channel.reset
  reporting := Reporting.reset
  intake := Intake.reset
  pool := Pool.reset
  table := Vector.replicate 4 none
  strokes := StrokeEngine.reset
  banks := Vector.replicate 8 Bank.reset
  refresh := RefreshUnit.reset
  regions := Vector.replicate 64 Region.reset
  domains := DomainControl.reset
  arrayMode := ModeLogic.reset
  array := ArrayCells.reset
  pending := []

end Sys2Proof.Machine
end

