-- ==== Sys2Proof/Machine/Operands.lean ====
section
/-! DEFINITION. The operands of orders: the fields of an entry, sequences, the array address map, static checks, footprints and the places of strokes. -/

namespace Sys2Proof.Machine

/-! ## Sequences (R6) -/

/-- `a` is before `b` when (b − a) mod 2^32 lies in 1 to 2^31 − 1. -/
def seqBefore (a b : Word) : Bool := decide (0 < (b - a).toNat) && decide ((b - a).toNat < 2147483648)

end Sys2Proof.Machine

namespace Sys2Proof

/-! ## Fields of an entry (R5) -/

/-- The eight order kinds. -/
inductive OrderKind where
  | load
  | fetch
  | copy
  | fill
  | scrub
  | retain
  | power
  | mark
  deriving DecidableEq, Repr

/-- KIND, bits 7:0 of word 0; none for a KIND not in 1 to 8. -/
def EntryWords.kind (e : EntryWords) : Option OrderKind :=
  match (e.word0.extractLsb' 0 8).toNat with
  | 1 => some .load
  | 2 => some .fetch
  | 3 => some .copy
  | 4 => some .fill
  | 5 => some .scrub
  | 6 => some .retain
  | 7 => some .power
  | 8 => some .mark
  | _ => none

/-- LANE, bits 9:8 of word 0. -/
def EntryWords.lane (e : EntryWords) : Lane := (e.word0.extractLsb' 8 2).toFin
/-- NOTIFY, bit 10 of word 0. -/
def EntryWords.notify (e : EntryWords) : Bool := e.word0.getLsbD 10
/-- The flag bits 23:11 of word 0. -/
def EntryWords.flags (e : EntryWords) : BitVec 13 := e.word0.extractLsb' 11 13
/-- ESTATE, bits 31:24 of word 0. -/
def EntryWords.estate (e : EntryWords) : BitVec 8 := e.word0.extractLsb' 24 8
def EntryWords.seq (e : EntryWords) : Word := e.word1
def EntryWords.hostAddr (e : EntryWords) : Nat := e.word2.toNat
def EntryWords.arrAddr (e : EntryWords) : Nat := e.word3.toNat
def EntryWords.length (e : EntryWords) : Nat := e.word4.toNat
def EntryWords.aux (e : EntryWords) : Word := e.word5
/-- The destination of a COPY (R5). -/
def EntryWords.dest (e : EntryWords) : Nat := e.word5.toNat
/-- AUX of RETAIN: bank mask, segment mask, action (R5). -/
def EntryWords.bankMask (e : EntryWords) : BitVec 8 := e.word5.extractLsb' 0 8
def EntryWords.segmentMask (e : EntryWords) : BitVec 8 := e.word5.extractLsb' 8 8
def EntryWords.keep (e : EntryWords) : Bool := e.word5.getLsbD 16
/-- AUX of POWER: domain, action (R5). -/
def EntryWords.domain (e : EntryWords) : DomainId := (e.word5.extractLsb' 0 2).toFin
def EntryWords.powerOn (e : EntryWords) : Bool := e.word5.getLsbD 8

/-- ESTATE codes POSTED and FINISHED (R5). -/
def estatePosted : BitVec 8 := 1
def estateFinished : BitVec 8 := 3

/-- Word 0 of the ESTATE write: the taken word with ESTATE replaced by FINISHED (R13). -/
def EntryWords.finishedWord0 (e : EntryWords) : Word := estateFinished ++ e.word0.extractLsb' 0 24

/-- LOAD, FETCH, COPY, FILL and SCRUB are data kinds (spec/00_scope.md section 6). -/
def OrderKind.isData : OrderKind → Bool
  | .load | .fetch | .copy | .fill | .scrub => true
  | .retain | .power | .mark => false

/-- LOAD, FETCH, COPY and SCRUB are buffer kinds. -/
def OrderKind.isBuffer : OrderKind → Bool
  | .load | .fetch | .copy | .scrub => true
  | .fill | .retain | .power | .mark => false

end Sys2Proof

namespace Sys2Proof.Machine

/-- The host address of an entry (R7). -/
def PoolOrder.entryAddress (o : PoolOrder) : Word := o.pageAddress + 32 + BitVec.ofNat 32 (32 * o.entrySlot)

def PoolOrder.seq (o : PoolOrder) : Word := o.entry.seq
def PoolOrder.kind (o : PoolOrder) : Option OrderKind := o.entry.kind

/-! ## The array address map (R90) -/

def addrBank (a : Nat) : BankId := Fin.ofNat 8 (a / 2048)
def addrRow (a : Nat) : BitVec 14 := BitVec.ofNat 14 (a / 16384)
def addrColumn (a : Nat) : BitVec 5 := BitVec.ofNat 5 (a % 2048 / 64)
def addrSegment (a : Nat) : Fin 8 := Fin.ofNat 8 (a / 33554432)

/-- Region bank × 8 + segment. -/
def regionOf (b : BankId) (g : Fin 8) : RegionId := ⟨b.val * 8 + g.val, by omega⟩
def addrRegion (a : Nat) : RegionId := regionOf (addrBank a) (addrSegment a)
def regionBank (r : RegionId) : BankId := ⟨r.val / 8, by omega⟩
def regionSegment (r : RegionId) : Fin 8 := ⟨r.val % 8, by omega⟩

/-- The array address of a stroke's place in a bank. -/
def placeAddress (b : BankId) (row : BitVec 14) (column : BitVec 5) : Nat :=
  row.toNat * 16384 + b.val * 2048 + column.toNat * 64

/-- The bank's domain: D0 holds banks 0 and 1, and so on (R166). -/
def bankDomain (b : BankId) : DomainId := ⟨b.val / 2, by omega⟩
def lowerBank (d : DomainId) : BankId := ⟨d.val * 2, by omega⟩
def upperBank (d : DomainId) : BankId := ⟨d.val * 2 + 1, by omega⟩
def regionDomain (r : RegionId) : DomainId := bankDomain (regionBank r)

def allLanes : List Lane := [0, 1, 2, 3]
def allBanks : List BankId := [0, 1, 2, 3, 4, 5, 6, 7]
def allSegments : List (Fin 8) := [0, 1, 2, 3, 4, 5, 6, 7]
/-- All regions in ascending region number. -/
def allRegions : List RegionId := List.finRange 64

/-! ## Static checks (R72) -/

/-- Fails check 3. -/
def misaligned (e : EntryWords) (k : OrderKind) : Bool :=
  k.isData && (e.arrAddr % 64 != 0 || e.length % 64 != 0 || (k == .copy && e.dest % 64 != 0))

/-- Fails check 4. -/
def badLength (e : EntryWords) (k : OrderKind) : Bool :=
  k.isData && (decide (e.length < Config.minLength) || decide (Config.maxLength < e.length))

/-- Fails check 5. -/
def outsideArray (e : EntryWords) (k : OrderKind) : Bool :=
  k.isData && (decide (Config.arrayBytes < e.arrAddr + e.length)
    || (k == .copy && decide (Config.arrayBytes < e.dest + e.length)))

/-- Fails check 6. -/
def badHostRange (e : EntryWords) (k : OrderKind) : Bool :=
  (k == .load || k == .fetch) && (e.hostAddr % 8 != 0 || decide (Config.hostSpan < e.hostAddr + e.length))

/-- Two intervals overlap when they share an address (spec/00_scope.md section 5). -/
def overlap (a alen b blen : Nat) : Bool := decide (a < b + blen) && decide (b < a + alen) && decide (0 < alen) && decide (0 < blen)

/-- Fails check 7. -/
def copyOverlap (e : EntryWords) (k : OrderKind) : Bool :=
  k == .copy && overlap e.arrAddr e.length e.dest e.length

/-- Fails check 8. -/
def badRetain (e : EntryWords) (k : OrderKind) : Bool :=
  k == .retain && (e.bankMask == 0 || e.segmentMask == 0 || e.word5.extractLsb' 17 15 != 0)

/-- Fails check 9. -/
def badPower (e : EntryWords) (k : OrderKind) : Bool :=
  k == .power && (e.word5.extractLsb' 2 6 != 0 || e.word5.extractLsb' 9 23 != 0)

/-- The REASON of the first static check that fails, or none (R72). -/
def staticCheck (e : EntryWords) : Option Nat :=
  match e.kind with
  | none => some 1
  | some k =>
    if e.flags != 0 then some 2
    else if misaligned e k then some 3
    else if badLength e k then some 4
    else if outsideArray e k then some 5
    else if badHostRange e k then some 6
    else if copyOverlap e k then some 7
    else if badRetain e k then some 8
    else if badPower e k then some 9
    else none

/-! ## Footprints (R74, R75) and conflicts (R76) -/

/-- Whether [a, a + len) holds a byte of region `r`: among the 2,048-byte blocks it meets inside the region's segment, one is of the region's bank (R75). -/
def touchesRegion (a len : Nat) (r : RegionId) : Bool :=
  let segmentFirst := (regionSegment r).val * 16384
  let low := max (a / 2048) segmentFirst
  let high := min ((a + len - 1) / 2048) (segmentFirst + 16383)
  decide (0 < len) && decide (low + ((regionBank r).val + 8 - low % 8) % 8 ≤ high)

/-- The regions that a list of intervals touches, ascending. -/
def intervalRegions (ivs : List ArrayInterval) : List RegionId :=
  allRegions.filter fun r => ivs.any fun iv => touchesRegion iv.base iv.length r

/-- The regions a RETAIN selects, ascending (R74). -/
def retainRegions (e : EntryWords) : List RegionId :=
  allRegions.filter fun r =>
    e.bankMask.getLsbD (regionBank r).val && e.segmentMask.getLsbD (regionSegment r).val

/-- The 16 regions of a domain, ascending (R74). -/
def domainRegions (d : DomainId) : List RegionId := allRegions.filter fun r => regionDomain r == d

def dataFootprint (ivs : List ArrayInterval) : Footprint :=
  { intervals := ivs, regions := intervalRegions ivs, whole := false }

/-- The footprint of an order by kind (R74). -/
def footprintOf (e : EntryWords) : OrderKind → Footprint
  | .load => dataFootprint [{ base := e.arrAddr, length := e.length, write := true }]
  | .fetch => dataFootprint [{ base := e.arrAddr, length := e.length, write := false }]
  | .copy => dataFootprint
      [{ base := e.arrAddr, length := e.length, write := false },
       { base := e.dest, length := e.length, write := true }]
  | .fill => dataFootprint [{ base := e.arrAddr, length := e.length, write := true }]
  | .scrub => dataFootprint [{ base := e.arrAddr, length := e.length, write := true }]
  | .retain => { intervals := [], regions := retainRegions e, whole := true }
  | .power => { intervals := [], regions := domainRegions e.domain, whole := true }
  | .mark => { intervals := [], regions := [], whole := false }

/-- Two intervals meet where at least one writes. -/
def intervalConflict (x y : ArrayInterval) : Bool :=
  overlap x.base x.length y.base y.length && (x.write || y.write)

/-- Whether two footprints conflict (R76). -/
def Footprint.conflicts (f g : Footprint) : Bool :=
  if f.whole || g.whole then f.regions.any fun r => g.regions.contains r
  else f.intervals.any fun x => g.intervals.any fun y => intervalConflict x y

/-! ## Strokes (R91, R105, R156) -/

/-- The 64 bytes of a FILL stroke: byte `j` is byte (j mod 4) of AUX, byte 0 being bits 7:0 (R105). -/
def fillLine (pattern : Word) : Line := Vector.ofFn fun j => pattern.extractLsb' (8 * (j.val % 4)) 8

/-- The 64 zero bytes of an arming stroke (R96). -/
def zeroLine : Line := Vector.replicate 64 0

/-- The region of stroke `i` of an arming list (R156). -/
def armingRegion (list : List RegionId) (i : Nat) : Option RegionId := list[i / Config.sweepStrokes]?

/-- The array address of sweep stroke `j` of a region (R156). -/
def sweepPlace (r : RegionId) (j : Nat) : Nat :=
  ((regionSegment r).val * 2048 + j / 32) * 16384 + (regionBank r).val * 2048 + j % 32 * 64

/-- The stroke kind of an order kind that makes strokes. -/
def strokeKindOf : OrderKind → Option StrokeKind
  | .load => some .load
  | .fetch => some .fetch
  | .copy => some .copy
  | .fill => some .fill
  | .scrub => some .scrub
  | .retain => some .arming
  | .power | .mark => none

/-- The array place of stroke `i` (R91, R156). -/
def strokePlace (e : EntryWords) (k : StrokeKind) (arming : List RegionId) (i : Nat) : Nat :=
  match k with
  | .arming =>
    match armingRegion arming i with
    | some r => sweepPlace r (i % Config.sweepStrokes)
    | none => 0
  | .load | .fetch | .copy | .fill | .scrub => e.arrAddr + 64 * i

/-- The host place of stroke `i` (R91). -/
def strokeHostPlace (e : EntryWords) (i : Nat) : Word := e.word2 + BitVec.ofNat 32 (64 * i)

/-- The second array place of stroke `i` of a COPY (R91). -/
def strokeDest (e : EntryWords) (i : Nat) : Nat := e.dest + 64 * i

/-! ## Times and codes -/

/-- CONTROL.POLL to µs (R28); none is off. -/
def pollIntervalUs (code : BitVec 2) : Option Nat :=
  match code.toNat with
  | 0 => none
  | 1 => some 20
  | 2 => some 200
  | _ => some 2000

/-- CONTROL.IDLE_SLEEP to µs (R174); none is never. -/
def idleIntervalUs (code : BitVec 3) : Option Nat :=
  match code.toNat with
  | 0 => none
  | 1 => some 100
  | 2 => some 1000
  | 3 => some 10000
  | _ => some 100000

/-- The response limit 2^c µs (R186). -/
def responseLimitUs (code : BitVec 3) : Nat := 2 ^ code.toNat

/-- The retention window W in ms (R133). -/
def windowMs : TempClass → Nat
  | .normal => 64
  | .warm => 32
  | .hot => 16

/-- The tick interval W / (128 × k) (R135). -/
def tickInterval (c : TempClass) (k : Nat) : TickInterval := { windowMs := windowMs c, groups := Config.rowGroups * k }

/-! ## Row groups (R115) -/

/-- The segment of a row group: 128 groups of 16 rows each. -/
def groupSegment (g : RowGroup) : Fin 8 := ⟨g.val / 128, by omega⟩

def firstGroup (g : Fin 8) : RowGroup := ⟨g.val * 128, by omega⟩

/-- Where the turn goes on after the group refreshed last: at the next group, at first with group 0 (log 31). -/
def turnStart (last : Option RowGroup) : RowGroup :=
  match last with
  | none => 0
  | some g => g + 1

/-- The next row group in turn over the retained segments, ascending and round again (R115, log 31). -/
def nextGroup (retained : Fin 8 → Bool) (last : Option RowGroup) : Option RowGroup :=
  let start := turnStart last
  if retained (groupSegment start) then some start
  else
    (([1, 2, 3, 4, 5, 6, 7] : List (Fin 8)).find? fun j => retained (groupSegment start + j)).map fun j =>
      firstGroup (groupSegment start + j)

end Sys2Proof.Machine
end

