-- ==== Sys2Proof/Machine/Ops.lean ====
section
/-! DEFINITION. Named operations every block uses: the array's cells, the orders of the pool and the table, the pending bits, the master channel's queue and its issue. -/

namespace Sys2Proof.Machine

/-! ## Sorted cells: the one canonical form of the array's contents -/

/-- What address `x` holds in a list of cells; an unlisted address holds `d`. -/
def cellGet (d : α) : List (Nat × α) → Nat → α
  | [], _ => d
  | (a, v) :: rest, x => if a = x then v else cellGet d rest x

/-- Put `v` at `x`, keeping addresses rising; a cell equal to `d` is not listed. -/
def cellSet [DecidableEq α] (d : α) : List (Nat × α) → Nat → α → List (Nat × α)
  | [], x, v => if v = d then [] else [(x, v)]
  | (a, w) :: rest, x, v =>
    if x < a then (if v = d then (a, w) :: rest else (x, v) :: (a, w) :: rest)
    else if x = a then (if v = d then rest else (a, v) :: rest)
    else (a, w) :: cellSet d rest x v

/-- The canonical form: addresses strictly rising and below `bound`, no cell equal to `d`. -/
abbrev CellsCanonical (d : α) (bound : Nat) (m : List (Nat × α)) : Prop :=
  m.Pairwise (fun x y => x.1 < y.1) ∧ ∀ c ∈ m, c.2 ≠ d ∧ c.1 < bound

/-- What a byte that nothing has written reads as (log 12). -/
def unlistedByte : Byte := 0

/-- The array's canonical form. -/
abbrev Memory.wf (m : ArrayCells) : Prop :=
  CellsCanonical unlistedByte Config.arrayBytes m.bytes ∧ CellsCanonical Disturbance.clean (Config.arrayBytes / 8) m.disturbed

/-- The byte last written at an array address. -/
def arrayByte (m : ArrayCells) (a : Nat) : Byte := cellGet unlistedByte m.bytes a

/-- How a stored word differs from what was written. -/
def wordDisturbance (m : ArrayCells) (n : Nat) : Disturbance := cellGet Disturbance.clean m.disturbed n

/-- The 64 bytes at `a` as last written. -/
def readLine (m : ArrayCells) (a : Nat) : Line := Vector.ofFn fun j => arrayByte m (a + j.val)

/-- Mark the eight words of the stroke at `a`. -/
def setDisturbed (m : ArrayCells) (a : Nat) (f : Fin 8 → Disturbance) : ArrayCells :=
  { m with disturbed := (List.finRange 8).foldl (fun ds j => cellSet Disturbance.clean ds (a / 8 + j.val) (f j)) m.disturbed }

/-- Write 64 bytes at `a` with new check codes (R100 WRITE): its words then agree with their codes. -/
def writeLine (m : ArrayCells) (a : Nat) (l : Line) : ArrayCells :=
  setDisturbed { m with bytes := (List.finRange 64).foldl (fun bs j => cellSet unlistedByte bs (a + j.val) l[j]) m.bytes } a
    fun _ => Disturbance.clean

/-- A second disturbed bit makes a word uncorrectable (R104, R107). -/
def joinDisturbance : Disturbance → Disturbance → Disturbance
  | .clean, d => d
  | d, .clean => d
  | .oneBit, .oneBit => .moreBits
  | .moreBits, _ => .moreBits
  | _, .moreBits => .moreBits

/-- The words of the stroke at `a` as a read now finds them. -/
def foundWords (m : ArrayCells) (a : Nat) (fresh : LineDisturbance) (j : Fin 8) : Disturbance :=
  joinDisturbance (wordDisturbance m (a / 8 + j.val)) fresh[j]

/-- The check unit's classification of a stroke (R107). -/
inductive Classification where
  | clean
  | corrected (words : Nat)
  | uncorrectable
  deriving DecidableEq, Repr

def classify (f : Fin 8 → Disturbance) : Classification :=
  if (List.finRange 8).any fun j => f j == .moreBits then .uncorrectable
  else
    match (List.finRange 8).countP fun j => f j == .oneBit with
    | 0 => .clean
    | n + 1 => .corrected (n + 1)

/-! ## The pending bits (R184) -/

def setNotify (s : State) : State := { s with port := { s.port with notifyPending := true } }
def setAlert (s : State) : State := { s with port := { s.port with alertPending := true } }
def setFault (s : State) : State := { s with port := { s.port with faultPending := true } }
def setDrained (s : State) : State := { s with port := { s.port with drainedPending := true } }

/-! ## The engine -/

def engineIs (s : State) (e : EngineState) : Bool := s.engine.state == e

/-- RUNNING or DRAINING: orders are promoted and reported (R54, R16). -/
def engineLive (s : State) : Bool := engineIs s .running || engineIs s .draining

/-! ## Requests (R185) and header updates (R16) -/

def placeRequest (r : Request) (s : State) : State :=
  { s with channel := { s.channel with queue := s.channel.queue ++ [r] } }

/-- A cause of a header update (R16). -/
def requestHeaderUpdate (s : State) : State :=
  if engineLive s && !s.reporting.headerPending then
    { placeRequest .headerUpdate s with reporting := { s.reporting with headerPending := true } }
  else s

def Request.isReport : Request → Bool
  | .result _ | .estate _ | .headerUpdate | .release => true
  | .startRead | .intakeRead _ | .hostRead _ | .hostWrite _ => false

def Request.isIntake : Request → Bool
  | .startRead | .intakeRead _ => true
  | .result _ | .estate _ | .headerUpdate | .release | .hostRead _ | .hostWrite _ => false

/-- The stroke of a DATA request. -/
def Request.dataStroke : Request → Option StrokeId
  | .hostRead i | .hostWrite i => some i
  | .result _ | .estate _ | .headerUpdate | .release | .startRead | .intakeRead _ => none

def reportHeld (s : State) : Bool :=
  s.channel.queue.any Request.isReport || (s.channel.outstanding.any fun a => a.request.isReport)

def intakeOutstanding (s : State) : Bool := s.channel.outstanding.any fun a => a.request.isIntake

/-! ## Orders in the table (R70) and the pool (R48) -/

def slotOrder (s : State) (i : SlotId) : Option PoolOrder := s.pool.slots[i]

def laneEntry (s : State) (l : Lane) : Option TableEntry := s.table[l]

/-- The order that a lane's table entry holds. -/
def laneOrder (s : State) (l : Lane) : Option PoolOrder := (laneEntry s l).bind fun e => slotOrder s e.slot

/-- The lifecycle state of a lane's table entry; none is EMPTY (R70). -/
def laneLife (s : State) (l : Lane) : Option Lifecycle := (laneOrder s l).map (·.life)

def setSlot (i : SlotId) (o : Option PoolOrder) (s : State) : State :=
  { s with pool := { s.pool with slots := s.pool.slots.set i o } }

def setEntry (l : Lane) (e : Option TableEntry) (s : State) : State := { s with table := s.table.set l e }

def setGenerator (l : Lane) (g : Option Generator) (s : State) : State :=
  { s with strokes := { s.strokes with generators := s.strokes.generators.set l g } }

def setBank (b : BankId) (k : Bank) (s : State) : State := { s with banks := s.banks.set b k }

def setRefresh (b : BankId) (r : RefreshBank) (s : State) : State :=
  { s with refresh := { s.refresh with banks := s.refresh.banks.set b r } }

/-- Change the order of a lane's entry, and its entry. -/
def updateLane (l : Lane) (f : PoolOrder → PoolOrder) (g : TableEntry → TableEntry) (s : State) : State :=
  match laneEntry s l with
  | none => s
  | some e =>
    match slotOrder s e.slot with
    | none => s
    | some o => setEntry l (some (g e)) (setSlot e.slot (some (f o)) s)

def freeSlot (s : State) : Option SlotId := (List.finRange 16).find? fun i => (slotOrder s i).isNone

def occupied (s : State) : Nat := s.pool.slots.toList.countP Option.isSome

/-- The slot of the order with a sequence. -/
def findSeq (s : State) (q : Word) : Option SlotId :=
  (List.finRange 16).find? fun i => (slotOrder s i).any fun o => o.seq == q

/-- The earliest of a list of sequences, `d` for none (R6). -/
def earliest (d : Word) : List Word → Word
  | [] => d
  | q :: rest => rest.foldl (fun m x => if seqBefore x m then x else m) q

/-- The oldest-open sequence of the pool as it stands (R52). -/
def computeOldest (p : Pool) : Word := earliest p.taken (p.slots.toList.filterMap fun o => o.map PoolOrder.seq)

/-! ## Strokes in flight (R92) -/

def strokesOf (s : State) (l : Lane) : List StrokeRecord := s.strokes.records.filter fun r => r.id.lane == l

def inFlight (s : State) (l : Lane) : Nat := (strokesOf s l).length

/-- Whether the switch controller has begun the ramp of this order's request (R168). -/
def rampOf (s : State) (n : OrderName) : Bool := s.domains.serving.any fun v => v.owner == some n

/-- Whether a lane's order has a stroke or step in flight (R85, R88). -/
def laneInFlight (s : State) (l : Lane) : Bool :=
  inFlight s l != 0 || (laneOrder s l).any fun o => rampOf s { lane := l, seq := o.seq }

/-! ## The table's indications (R81) -/

def laneWaits (s : State) (l : Lane) (w : WaitReason) : Bool :=
  laneLife s l == some .waiting && (laneEntry s l).any fun e => e.wait == some w

def wakeDemand (s : State) : Bool := allLanes.any fun l => laneWaits s l .array

def busy (s : State) : Bool :=
  allLanes.any fun l =>
    match laneLife s l with
    | some .waiting | some .running | some .stopping => true
    | some .queued | some .reporting | none => false

/-! ## The LOST set and k (R11, R151) -/

def regionState (s : State) (r : RegionId) : RegionState := s.regions[r].state

/-- The LOST set as 64 bits: bit `r` is region `r` (R11). -/
def lostMap (s : State) : BitVec 64 :=
  allRegions.foldl (fun m r => if regionState s r == .lost then m ||| BitVec.twoPow 64 r.val else m) 0

def RegionState.retained : RegionState → Bool
  | .arming | .kept => true
  | .off | .dropped | .lost => false

/-- The number of a bank's regions in KEPT or ARMING (R151). -/
def retainedCount (s : State) (b : BankId) : Nat :=
  allSegments.countP fun g => (regionState s (regionOf b g)).retained

/-! ## Codes (R3) -/

def IntakeState.code : IntakeState → Nat
  | .off => 0
  | .watch => 1
  | .reading => 2
  | .stalledPool => 3
  | .stalledPages => 4
  | .broken => 5

def tempClassCode : TempClass → Nat
  | .normal => 0
  | .warm => 1
  | .hot => 2

def ArrayMode.code : ArrayMode → Nat
  | .run => 0
  | .enteringSleep => 1
  | .asleep => 2
  | .waking => 3

def DomainState.code : DomainState → Nat
  | .off => 0
  | .rampingUp => 1
  | .on => 2
  | .rampingDown => 3

def OutcomeCode.code : OutcomeCode → Nat
  | .ok => 1
  | .okCorrected => 2
  | .dataError => 3
  | .badOrder => 4
  | .cancelled => 5
  | .regionDropped => 6
  | .regionLost => 7
  | .domainOff => 8
  | .hostBusFault => 9

/-- The CONDITION word (R3). -/
def conditionWord (s : State) : Word :=
  BitVec.ofNat 32
    (tempClassCode s.refresh.tempClass + ArrayMode.code s.arrayMode.mode * 4 + DomainState.code s.domains.states[0] * 16
      + DomainState.code s.domains.states[1] * 64 + DomainState.code s.domains.states[2] * 256
      + DomainState.code s.domains.states[3] * 1024 + IntakeState.code s.intake.state * 4096)

/-! ## Issue (R186) -/

def exbaseAddress (s : State) : Word := s.port.exbase ++ (0 : BitVec 6)

/-- The eight words of a header update, offsets 16 to 47, as they stand (R2, R17). -/
def headerWords (s : State) : List Word :=
  [s.pool.taken, s.pool.finished, s.reporting.released, s.pool.oldestOpen, (lostMap s).extractLsb' 0 32,
    (lostMap s).extractLsb' 32 32, s.refresh.breaches, conditionWord s]

/-- Word 6 of a result: OUTCOME, REASON, CORRECTED (R5, R12). -/
def resultWord6 (o : PoolOrder) : Word :=
  BitVec.ofNat 32 (((o.outcome.map OutcomeCode.code).getD 0) + o.reason * 256 + o.corrected * 65536)

def resultWords (o : PoolOrder) : List Word := [resultWord6 o, BitVec.ofNat 32 o.done]

def findStroke (s : State) (i : StrokeId) : Option StrokeRecord := s.strokes.records.find? fun r => r.id == i

/-- The bytes that a stroke's buffer holds. -/
def strokeData (s : State) (r : StrokeRecord) : Line :=
  ((r.buffer.bind fun b => s.strokes.buffers[b]).bind fun h => h.data).getD zeroLine

/-- The address of the next entry (R38). -/
def entryReadAddress (i : Intake) : Word := i.currentPage + 32 + BitVec.ofNat 32 (32 * i.nextSlot)

/-- The address and payload of a request as it is issued (R1, R7, R12, R13, R15, R20, R31, R35, R36, R38, R189, R106). -/
def accessOf (s : State) : Request → Word × Payload
  | .result i =>
    match slotOrder s i with
    | some o => (o.entryAddress + 24, .writeWords (resultWords o))
    | none => (0, .writeWords [])
  | .estate i =>
    match slotOrder s i with
    | some o => (o.entryAddress, .writeWords [o.entry.finishedWord0])
    | none => (0, .writeWords [])
  | .headerUpdate => (exbaseAddress s + 16, .writeWords (headerWords s))
  | .release => (((s.intake.records.head?.map (·.address)).getD 0) + 4, .writeWords [2])
  | .startRead => (exbaseAddress s, .read 8)
  | .intakeRead .tally => (exbaseAddress s, .read 4)
  | .intakeRead .next => (s.intake.currentPage, .read 4)
  | .intakeRead .header => (s.intake.candidate + 8, .read 4)
  | .intakeRead .entry => (entryReadAddress s.intake, .read 24)
  | .hostRead i => (((findStroke s i).map (·.hostPlace)).getD 0, .read 64)
  | .hostWrite i =>
    match findStroke s i with
    | some r => (r.hostPlace, .writeLine (strokeData s r))
    | none => (0, .writeLine zeroLine)

/-- Whether a request may be issued in an engine state (R186). -/
def mayIssue (e : EngineState) (r : Request) : Bool :=
  match e with
  | .disabled | .halted => false
  | .starting => r == .startRead
  | .running | .draining => true

/-- DATA requests: earliest sequence, then lowest offset (R186 3). -/
def dataBefore (a b : StrokeId) : Bool := seqBefore a.seq b.seq || (a.seq == b.seq && decide (a.index < b.index))

def betterData (best : Option Request) (r : Request) : Option Request :=
  match r.dataStroke, best.bind Request.dataStroke with
  | some i, some j => if dataBefore i j then some r else best
  | some _, none => some r
  | none, _ => best

/-- The request the arbiter picks (R186). -/
def pickRequest (q : List Request) : Option Request :=
  match q.find? Request.isReport with
  | some r => some r
  | none =>
    match q.find? Request.isIntake with
    | some r => some r
    | none => q.foldl betterData none

/-- What the issue of a request changes beside the channel: a header update samples and takes notify-owed (R17, R18), a tally read clears nudge-pending (R30). -/
def issueEffect (r : Request) (s : State) : State :=
  match r with
  | .headerUpdate => { s with reporting := { s.reporting with headerPending := false, notifyOwed := false } }
  | .intakeRead .tally => { s with intake := { s.intake with nudgePending := false } }
  | _ => s

def issueRequest (r : Request) (s : State) : State :=
  let access : Access :=
    { request := r, tag := s.channel.nextTag, address := (accessOf s r).1, payload := (accessOf s r).2, stage := .first,
      limitUs := responseLimitUs s.port.response, carriesNotify := r == .headerUpdate && s.reporting.notifyOwed }
  issueEffect r
    { s with channel := { queue := s.channel.queue.erase r, outstanding := some access, nextTag := s.channel.nextTag + 1 } }

/-- The master channel's arbiter: with no access outstanding, issue the next allowed request (R186). -/
def issueAccess (s : State) : State :=
  if s.channel.outstanding.isSome || s.port.resetHeld then s
  else
    match pickRequest (s.channel.queue.filter (mayIssue s.engine.state)) with
    | none => s
    | some r => issueRequest r s

/-- Take the outstanding access off the channel if a response with this tag is for a request of this sort (R187). -/
def acceptResponse (tag : Nat) (sort : Request → Bool) (s : State) : Option (Access × State) :=
  match s.channel.outstanding with
  | none => none
  | some a =>
    if a.tag == tag && sort a.request then some (a, { s with channel := { s.channel with outstanding := none } })
    else none

end Sys2Proof.Machine
end

