-- ==== Sys2Proof/Machine/BankOps.lean ====
section
/-! DEFINITION. Shared operations of the Bank Controllers and the Refresh Unit: the refresh indication, the arbiter's decision, and the hand-over of k. -/

namespace Sys2Proof.Machine

/-- Levels of the refresh indication (R117). -/
inductive RefreshLevel where
  | noneDue
  | due
  | urgent
  deriving DecidableEq, Repr

/-- The level of an account (R117, R138). -/
def refreshLevel (r : RefreshBank) : RefreshLevel :=
  if Config.accountCeiling ≤ r.account then .urgent
  else if Config.accountDue ≤ r.account then .due
  else .noneDue

/-- Pull-in is allowed while k is above 0 and the account above −8 (R117, R138), at an ASLEEP bank too, where R143 says that it is disallowed: the model's choice, log 32. -/
def pullInAllowed (r : RefreshBank) : Bool := decide (0 < r.k) && decide (Config.accountFloor < r.account)

/-- Both parts of the indication a bank sees (R138). -/
def indication (s : State) (b : BankId) : RefreshLevel × Bool :=
  (refreshLevel s.refresh.banks[b], pullInAllowed s.refresh.banks[b])

/-! ## Operations of a bank (R115) -/

def startOpen (row : BitVec 14) (k : Bank) : Bank := { k with state := .opening, openRow := some row, streak := 0 }

def startAccess (r : BankRequest) (k : Bank) : Bank :=
  { k with state := .accessing, inHand := some r, requests := k.requests.erase r, streak := min (k.streak + 1) Config.streakLimit }

def startClose (k : Bank) : Bank := { k with state := .closing }

/-- A refresh starts, of row group `g` (R115). -/
def startRefresh (g : Option RowGroup) (k : Bank) : Bank := { k with state := .refreshing, rowGroup := g }

/-- The waiting request of the earliest sequence, the first joined among equals (R116, R120, R121). -/
def earliestRequest : List BankRequest → Option BankRequest
  | [] => none
  | r :: rest => some (rest.foldl (fun m x => if seqBefore x.seq m.seq then x else m) r)

/-- The decision in OPEN (R119, R120). -/
def decideOpen (level : RefreshLevel) (k : Bank) : Bank :=
  if level = .urgent then startClose k
  else
    let hits := k.requests.filter fun r => some r.row == k.openRow
    let others := k.requests.any fun r => some r.row != k.openRow
    match earliestRequest hits with
    | some r =>
      if k.streak < Config.streakLimit || !others then startAccess r k else startClose k
    | none => if !k.requests.isEmpty || level == .due then startClose k else k

/-- The decision in IDLE (R119, R121). -/
def decideIdle (level : RefreshLevel) (pullIn : Bool) (g : Option RowGroup) (k : Bank) : Bank :=
  if level = .urgent || level = .due then startRefresh g k
  else
    match earliestRequest k.requests with
    | some r => startOpen r.row k
    | none => if pullIn then startRefresh g k else k

/-- The row group that a refresh of the bank takes now: the next in turn over its segments in KEPT or ARMING (R115). -/
def groupDue (s : State) (b : BankId) : Option RowGroup :=
  nextGroup (fun g => (regionState s (regionOf b g)).retained) s.banks[b].rowGroup

/-- The arbiter's decision on what it sees (R118). -/
def decide1 (i : RefreshLevel × Bool) (g : Option RowGroup) (k : Bank) : Bank :=
  if k.sleepHold || k.standDown then k
  else
    match k.state with
    | .idle => decideIdle i.1 i.2 g k
    | .opened => decideOpen i.1 k
    | .unpowered | .asleep | .opening | .accessing | .closing | .refreshing => k

/-- One decision of a bank's arbiter (R118). -/
def bankDecide (b : BankId) (s : State) : State := setBank b (decide1 (indication s b) (groupDue s b) s.banks[b]) s

/-- The arrival at the arbiter of a change of the indication (R118, R138). -/
def indicationChanged (before : RefreshLevel × Bool) (b : BankId) (s : State) : State :=
  if indication s b = before then s else bankDecide b s

/-! ## The hand-over of k (R134, R151) -/

/-- A bank with power that is not ASLEEP: its tick timer may run (R135). -/
def bankAwake (k : Bank) : Bool := k.state != .unpowered && k.state != .asleep

/-- A fresh tick interval begins, from the class and k of this event (R135), with a number of its own (log 36). -/
def startInterval (c : TempClass) (r : RefreshBank) : RefreshBank :=
  { r with timer := some (tickInterval c r.k), interval := r.interval + 1 }

/-- What the Refresh Unit makes of a new k (R134): between two values above 0 the interval that was running is discarded (R139). -/
def refreshWithK (c : TempClass) (k : Bank) (n : Nat) (r : RefreshBank) : RefreshBank :=
  if n = r.k then r
  else if n = 0 then { r with account := 0, k := 0, timer := none, void := r.void || k.state == .refreshing }
  else if bankAwake k then startInterval c { r with k := n }
  else { r with k := n, timer := none }

/-- The Region Map hands a bank's k over (R151); a count that has not changed hands nothing. -/
def handK (b : BankId) (s : State) : State :=
  let before := indication s b
  indicationChanged before b
    (setRefresh b (refreshWithK s.refresh.tempClass s.banks[b] (retainedCount s b) s.refresh.banks[b]) s)

/-- Hand k over for every bank whose count changed at this event (R151). -/
def handAllK (s : State) : State := allBanks.foldl (fun t b => handK b t) s

/-! ## Regions -/

/-- Change every region record at one event. -/
def mapRegions (f : RegionId → Region → Region) (s : State) : State :=
  { s with regions := Vector.ofFn fun r : RegionId => f r s.regions[r] }

def Region.become (st : RegionState) : Region := { state := st, owner := none, sweep := 0 }

/-- Whether the region is ARMING under this order (R94, R157). -/
def armedBy (s : State) (n : OrderName) (r : RegionId) : Bool :=
  regionState s r == .arming && s.regions[r].owner == some n

/-- An order's ARMING regions go to DROPPED (R158). -/
def dropArming (n : OrderName) (s : State) : State :=
  if allRegions.any (armedBy s n) then
    handAllK (mapRegions (fun x r => if armedBy s n x then Region.become .dropped else r) s)
  else s

/-- Request the header update of a change in the LOST set (R162). -/
def lostSetFollow (before : BitVec 64) (s : State) : State := if lostMap s = before then s else requestHeaderUpdate s

end Sys2Proof.Machine
end

