-- ==== Sys2Proof/Machine/OrderOps.lean ====
section
/-! DEFINITION. Shared operations on orders: entering REPORTING, entering STOPPING, completing work, and the follow-ups of the idle timer. -/

namespace Sys2Proof.Machine

/-- What an order reports (R86). -/
structure OrderResult where
  outcome : OutcomeCode
  reason : Nat
  corrected : Nat
  done : Nat
  deriving DecidableEq, Repr

/-- A result with REASON, CORRECTED and DONE 0. -/
def plainResult (o : OutcomeCode) : OrderResult := { outcome := o, reason := 0, corrected := 0, done := 0 }

/-- The slot of an order that enters REPORTING (R86 1). -/
def reportSlot (r : OrderResult) (o : PoolOrder) : PoolOrder :=
  { o with life := .reporting, outcome := some r.outcome, reason := r.reason, corrected := r.corrected, done := r.done }

/-- The entry of an order that enters REPORTING (R86 2, 3; R78). -/
def reportEntry (e : TableEntry) : TableEntry :=
  { e with wait := none, footprint := if e.started then e.footprint else none }

/-- A lane's order enters REPORTING: its result is fixed, its generator is removed and its result write joins the queue (R86, R92, R12). -/
def toReporting (l : Lane) (r : OrderResult) (s : State) : State :=
  match laneEntry s l with
  | none => s
  | some e => placeRequest (.result e.slot) (setGenerator l none (updateLane l (reportSlot r) reportEntry s))

/-- The outcome of a stop cause (R85). -/
def StopCause.outcome : StopCause → OutcomeCode
  | .cancelled => .cancelled
  | .dataError => .dataError
  | .regionLost => .regionLost
  | .regionDropped => .regionDropped
  | .hostBusFault => .hostBusFault

/-- What a STOPPING order reports (R85). -/
def stopResult (c : StopCause) (o : PoolOrder) : OrderResult :=
  { outcome := c.outcome, reason := 0, corrected := o.corrected, done := o.done }

/-- A STOPPING order with a recorded cause and nothing in flight enters REPORTING, the engine not being HALTED (R85, R112). -/
def endTest (l : Lane) (s : State) : State :=
  match laneOrder s l with
  | none => s
  | some o =>
    match o.stopCause with
    | none => s
    | some c =>
      if o.life == .stopping && !engineIs s .halted && !laneInFlight s l then toReporting l (stopResult c o) s else s

/-- A generator begins nothing new (R84, R112). -/
def stopIssuing (l : Lane) (s : State) : State :=
  setGenerator l (s.strokes.generators[l].map fun g => { g with issuing := false }) s

/-- A RUNNING order goes to STOPPING, with the cause taken or, at a halt, with none (R84, R88, R158). -/
def stopOrder (l : Lane) (cause : Option StopCause) (s : State) : State :=
  match laneOrder s l with
  | none => s
  | some o =>
    if o.life == .running then
      dropArming { lane := l, seq := o.seq }
        (stopIssuing l (updateLane l (fun o => { o with life := .stopping, stopCause := cause }) id s))
    else s

/-- A RUNNING order goes to STOPPING and, with nothing in flight, on to REPORTING at once (R85, R112). -/
def toStopping (l : Lane) (cause : Option StopCause) (s : State) : State :=
  if laneLife s l == some .running then endTest l (stopOrder l cause s) else s

/-- Whether a lane's entry holds the order with a sequence. -/
def laneHolds (s : State) (n : OrderName) : Bool := (laneOrder s n.lane).any fun o => o.seq == n.seq

/-- A RUNNING order's work completes with no stop cause taken (R83). -/
def orderComplete (l : Lane) (r : OrderResult) (s : State) : State :=
  if laneLife s l == some .running then toReporting l r s else endTest l s

/-! ## The idle timer (R174) -/

/-- The idle timer runs while the array mode is RUN and busy is absent; it starts and stops with these conditions. -/
def idleFollow (s : State) : State :=
  if s.arrayMode.mode == .run && !busy s then
    if s.arrayMode.idleTimer.isSome then s
    else { s with arrayMode := { s.arrayMode with idleTimer := idleIntervalUs s.port.idleSleep } }
  else { s with arrayMode := { s.arrayMode with idleTimer := none } }

/-- The idle timer starts from zero with the code in CONTROL, if its conditions hold (R174, R178). -/
def idleRestart (s : State) : State :=
  if s.arrayMode.mode == .run && !busy s then
    { s with arrayMode := { s.arrayMode with idleTimer := idleIntervalUs s.port.idleSleep } }
  else s

end Sys2Proof.Machine
end

