-- ==== Sys2Proof/Machine/StrokeOps.lean ====
section
/-! DEFINITION. Shared operations of the Stroke Engine: issue, region check, buffers and their allocator, the end of a stroke and the DONE prefix. -/

namespace Sys2Proof.Machine

/-! ## Bank requests (R100, R116) -/

/-- The bank request of a stroke at an array address. -/
def bankRequestAt (r : StrokeRecord) (a : Nat) (k : BankRequestKind) : BankRequest :=
  { seq := r.id.seq, row := addrRow a, column := addrColumn a, kind := k, stroke := some r.id }

/-- A request joins the pending set of its bank; in IDLE or OPEN the arbiter decides (R116, R118). -/
def joinBank (b : BankId) (q : BankRequest) (s : State) : State :=
  bankDecide b (setBank b { s.banks[b] with requests := s.banks[b].requests ++ [q] } s)

def bankUnpowered (s : State) (b : BankId) : Bool := s.banks[b].state == .unpowered

/-! ## The prefix (R110) -/

/-- Pass the prefix over the strokes of the completed-ahead set that follow it. -/
def passAhead : Nat → Nat → List Nat → Nat × List Nat
  | 0, p, ahead => (p, ahead)
  | fuel + 1, p, ahead => if ahead.contains p then passAhead fuel (p + 1) (ahead.erase p) else (p, ahead)

/-- A stroke completes: it enters the prefix, joins the completed-ahead set, or lies above the barrier (R110). -/
def enterPrefix (i : Nat) (g : Generator) : Generator :=
  if i = g.prefixLen then
    { g with prefixLen := (passAhead g.ahead.length (i + 1) g.ahead).1, ahead := (passAhead g.ahead.length (i + 1) g.ahead).2 }
  else if i > g.prefixLen && (g.barrier.all fun b => decide (i < b)) then { g with ahead := g.ahead ++ [i] }
  else g

/-- A stroke fails: the barrier is the lowest failed index (R109 4). -/
def lowerBarrier (i : Nat) (g : Generator) : Generator :=
  if g.barrier.all fun b => decide (i < b) then { g with barrier := some i } else g

def updateGenerator (l : Lane) (f : Generator → Generator) (s : State) : State :=
  setGenerator l (s.strokes.generators[l].map f) s

/-! ## The end of a stroke (R109) -/

/-- Remove a stroke's record and release its buffer (R99, R109 1). -/
def removeStroke (r : StrokeRecord) (s : State) : State :=
  { s with strokes := { s.strokes with
      records := s.strokes.records.filter fun x => !(x.id == r.id),
      buffers := match r.buffer with
        | some b => s.strokes.buffers.set b none
        | none => s.strokes.buffers } }

/-- The order of a stroke: the one its lane holds, if it is still that order. -/
def strokeOrder (s : State) (i : StrokeId) : Option PoolOrder :=
  (laneOrder s i.lane).bind fun o => if o.seq == i.seq then some o else none

/-- Set one region record. -/
def setRegion (r : RegionId) (v : Region) (s : State) : State := { s with regions := s.regions.set r v }

/-- A completed arming stroke is reported to the Region Map (R157). -/
def armingReport (i : StrokeId) (r : RegionId) (s : State) : State :=
  if armedBy s { lane := i.lane, seq := i.seq } r then
    if s.regions[r].sweep + 1 < Config.sweepStrokes then
      setRegion r { s.regions[r] with sweep := s.regions[r].sweep + 1 } s
    else
      let s := updateLane i.lane (fun o => { o with done := o.done + Config.regionBytes }) id (setRegion r (Region.become .kept) s)
      match s.strokes.generators[i.lane], laneOrder s i.lane with
      | some g, some o =>
        if g.armingList.length * Config.regionBytes ≤ o.done then
          orderComplete i.lane { outcome := .ok, reason := 0, corrected := 0, done := o.done } s
        else s
      | _, _ => s
  else s

/-- The outcome of a data order whose work is complete (R83). -/
def dataResult (o : PoolOrder) : OrderResult :=
  { outcome := if o.corrected = 0 then .ok else .okCorrected, reason := 0, corrected := o.corrected, done := o.done }

/-- A RUNNING data order whose prefix equals its stroke count is complete (R111). -/
def dataCompleteTest (l : Lane) (s : State) : State :=
  match s.strokes.generators[l], laneOrder s l with
  | some g, some o =>
    if g.armingList.isEmpty && g.prefixLen == g.strokeCount && o.life == .running then toReporting l (dataResult o) s else s
  | _, _ => s

/-- Copy the prefix of a data order into DONE (R110). -/
def copyDone (l : Lane) (s : State) : State :=
  match s.strokes.generators[l] with
  | some g => if g.armingList.isEmpty then updateLane l (fun o => { o with done := Config.strokeBytes * g.prefixLen }) id s else s
  | none => s

/-- Add a completed stroke's corrected words (R108). -/
def addCorrected (l : Lane) (n : Nat) (s : State) : State :=
  updateLane l (fun o => { o with corrected := min (o.corrected + n) Config.maxCorrected }) id s

/-- A stroke completes successfully (R109 1 to 3). -/
def strokeCompletes (r : StrokeRecord) (s : State) : State :=
  let s := removeStroke r s
  if (strokeOrder s r.id).isNone then s
  else
    let s := copyDone r.id.lane (updateGenerator r.id.lane (enterPrefix r.id.index) (addCorrected r.id.lane r.corrected s))
    if r.kind = .arming then armingReport r.id (addrRegion r.place) s else s

/-- A stroke fails with a stop cause, recorded if its order is RUNNING (R109 1, 2, 4); the end test is step 6. -/
def strokeFails (r : StrokeRecord) (c : StopCause) (s : State) : State :=
  let s := removeStroke r s
  if (strokeOrder s r.id).isNone then s
  else stopOrder r.id.lane (some c) (updateGenerator r.id.lane (lowerBarrier r.id.index) s)

/-- The end tests of R111 and R112 (R109 6). -/
def endTests (l : Lane) (s : State) : State := endTest l (dataCompleteTest l s)

/-- Place a bank request of a stroke; at an UNPOWERED bank it is discarded and the stroke fails (R126), with its end test (R109 6); the issue test of R109 5 is the one under way. -/
def placeBankRequest (r : StrokeRecord) (a : Nat) (k : BankRequestKind) (s : State) : State :=
  if bankUnpowered s (addrBank a) then endTest r.id.lane (strokeFails r .regionDropped s)
  else joinBank (addrBank a) (bankRequestAt r a k) s

/-! ## Issue (R93 to R96) -/

/-- The region check of a stroke about to issue: the first region, ascending, not in its required state (R94). -/
def failedRegion (s : State) (n : OrderName) (k : StrokeKind) (place dest : Nat) : Option RegionId :=
  match k with
  | .arming => if armedBy s n (addrRegion place) then none else some (addrRegion place)
  | .copy =>
    (allRegions.filter fun r => r == addrRegion place || r == addrRegion dest).find? fun r => regionState s r != .kept
  | .load | .fetch | .fill | .scrub => if regionState s (addrRegion place) == .kept then none else some (addrRegion place)

/-- The stop cause of a region found in the wrong state (R94). -/
def regionCause : RegionState → StopCause
  | .lost => .regionLost
  | .off | .dropped | .arming | .kept => .regionDropped

/-- The phase a stroke starts in (R95). -/
def firstPhase : StrokeKind → Phase
  | .load => .hostReading
  | .fetch | .copy => .arrayReading
  | .scrub => .scrubbing
  | .fill | .arming => .arrayWriting

/-- Place a stroke's first step (R95 3). -/
def placeFirstStep (r : StrokeRecord) (aux : Word) (s : State) : State :=
  match r.kind with
  | .load => placeRequest (.hostRead r.id) s
  | .fetch | .copy => placeBankRequest r r.place .read s
  | .scrub => placeBankRequest r r.place .scrub s
  | .fill => placeBankRequest r r.place (.write (fillLine aux)) s
  | .arming => placeBankRequest r r.place (.write zeroLine) s

/-- Hold a buffer for a stroke (R97). -/
def holdBuffer (b : Option BufferId) (i : StrokeId) (s : State) : State :=
  match b with
  | some b => { s with strokes := { s.strokes with buffers := s.strokes.buffers.set b (some { holder := i, data := none }) } }
  | none => s

def addStroke (r : StrokeRecord) (s : State) : State :=
  { s with strokes := { s.strokes with records := s.strokes.records ++ [r] } }

/-- The record of a generator's next stroke (R95 1). -/
def nextRecord (l : Lane) (o : PoolOrder) (g : Generator) (k : StrokeKind) (b : Option BufferId) : StrokeRecord :=
  { id := { lane := l, seq := o.seq, index := g.nextStroke }, kind := k,
    place := strokePlace o.entry k g.armingList g.nextStroke, hostPlace := strokeHostPlace o.entry g.nextStroke,
    destPlace := strokeDest o.entry g.nextStroke, buffer := b, phase := firstPhase k, corrected := 0 }

/-- A lane's order, generator and stroke kind. -/
def laneWork (s : State) (l : Lane) : Option (PoolOrder × Generator × StrokeKind) :=
  match laneOrder s l, s.strokes.generators[l] with
  | some o, some g => (o.kind.bind strokeKindOf).map fun k => (o, g, k)
  | _, _ => none

/-- A lane's next stroke is checked and issues, or stops its order (R94, R95). -/
def issueStroke (l : Lane) (b : Option BufferId) (s : State) : State :=
  match laneWork s l with
  | none => s
  | some (o, g, k) =>
    let r := nextRecord l o g k b
    match failedRegion s { lane := l, seq := o.seq } k r.place r.destPlace with
    | some x => toStopping l (some (regionCause (regionState s x))) s
    | none =>
      placeFirstStep r o.entry.aux
        (updateGenerator l (fun g => { g with nextStroke := g.nextStroke + 1 }) (addStroke r (holdBuffer b r.id s)))

/-- The first stroke of a region's sweep waits for the sweep before it to complete (R156). -/
def sweepReady (o : PoolOrder) (g : Generator) : Bool :=
  g.armingList.isEmpty || decide (Config.regionBytes * (g.nextStroke / Config.sweepStrokes) ≤ o.done)

/-- The issue test (R93, R156). -/
def mayIssueStroke (s : State) (l : Lane) (o : PoolOrder) (g : Generator) : Bool :=
  g.issuing && decide (g.nextStroke < g.strokeCount) && decide (inFlight s l < Config.maxInFlight)
    && !engineIs s .halted && sweepReady o g

/-- Whether a stroke kind needs a buffer (R93). -/
def StrokeKind.needsBuffer : StrokeKind → Bool
  | .load | .fetch | .copy | .scrub => true
  | .fill | .arming => false

/-- A lane whose next stroke may issue without a buffer (R93). -/
def issuesAlone (s : State) (l : Lane) : Bool :=
  match laneWork s l with
  | some (o, g, k) => !k.needsBuffer && mayIssueStroke s l o g
  | none => false

/-- A wanter of the allocator (R93). -/
def wantsBuffer (s : State) (l : Lane) : Bool :=
  match laneWork s l with
  | some (o, g, k) => k.needsBuffer && mayIssueStroke s l o g
  | none => false

/-- FILL and arming strokes issue at once while the issue test holds (R93). -/
def issueAlone : Nat → Lane → State → State
  | 0, _, s => s
  | fuel + 1, l, s => if issuesAlone s l then issueAlone fuel l (issueStroke l none s) else s

/-! ## The allocator (R98) -/

def freeBuffer (s : State) : Option BufferId := (List.finRange 8).find? fun b => s.strokes.buffers[b].isNone

/-- The lanes in the order the allocator considers them: last-granted + 1, + 2, + 3, itself (R98). -/
def grantOrder (last : Lane) : List Lane := [last + 1, last + 2, last + 3, last]

/-- The lane the allocator grants next. -/
def nextWanter (s : State) : Option Lane := (grantOrder s.strokes.lastGranted).find? (wantsBuffer s)

/-- One grant: the lane's next stroke issues with the buffer; if its region check fails the buffer stays free and the last-granted lane is unchanged (R98). -/
def grantBuffer (l : Lane) (b : BufferId) (s : State) : State :=
  match laneWork s l with
  | none => s
  | some (o, g, k) =>
    let r := nextRecord l o g k (some b)
    if (failedRegion s { lane := l, seq := o.seq } k r.place r.destPlace).isSome then issueStroke l (some b) s
    else issueStroke l (some b) { s with strokes := { s.strokes with lastGranted := l } }

/-- The allocator grants one buffer at a time until no buffer is free or no wanter remains (R98). -/
def grantBuffers : Nat → State → State
  | 0, s => s
  | fuel + 1, s =>
    match freeBuffer s, nextWanter s with
    | some b, some l => grantBuffers fuel (grantBuffer l b s)
    | _, _ => s

/-- Eight buffers and four lanes bound the grants of one event. -/
def grants (s : State) : State := grantBuffers 12 s

/-- The issue test and the grants that follow a start or the end of a stroke (R93, R98, R109 5). -/
def issueMore (l : Lane) (s : State) : State := grants (issueAlone Config.maxInFlight l s)

/-- A stroke completes, with what follows at the same event (R109). -/
def strokeDone (r : StrokeRecord) (s : State) : State := endTests r.id.lane (issueMore r.id.lane (strokeCompletes r s))

/-- A stroke fails, with what follows at the same event (R109). -/
def strokeFailed (r : StrokeRecord) (c : StopCause) (s : State) : State :=
  endTests r.id.lane (issueMore r.id.lane (strokeFails r c s))

end Sys2Proof.Machine
end

