-- ==== Sys2Proof/Machine/DomainOps.lean ====
section
/-! DEFINITION. Shared operations of the Domain Controller and the Array Mode logic: ramps, stand-down, sleep entry and wake. -/

namespace Sys2Proof.Machine

/-! ## The array mode (R173 to R176) -/

/-- Every bank that is not UNPOWERED is ASLEEP (R175). -/
def allAsleep (s : State) : Bool := allBanks.all fun b => !bankAwake s.banks[b]

/-- The mode becomes WAKING and the wake timer starts (R176). -/
def startWake (s : State) : State :=
  requestHeaderUpdate { s with arrayMode := { s.arrayMode with mode := .waking, wakeTimer := some Config.wakeUs } }

/-- The completion of sleep entry: WAKING if a wake is demanded and no sleep is forced, else ASLEEP (R176). -/
def endSleepEntry (s : State) : State :=
  if wakeDemand s && !s.arrayMode.forcedSleep then startWake s
  else requestHeaderUpdate { s with arrayMode := { s.arrayMode with mode := .asleep } }

/-- The test for the completion of sleep entry (R175). -/
def sleepEntryTest (s : State) : State :=
  if s.arrayMode.mode == .enteringSleep && allAsleep s then endSleepEntry s else s

/-- A wake demand that arises in ASLEEP starts the wake (R176). -/
def wakeFollow (s : State) : State := if s.arrayMode.mode == .asleep && wakeDemand s then startWake s else s

/-! ## A domain's regions and banks -/

/-- A domain's state changes, and requests a header update (R166). -/
def setDomain (d : DomainId) (st : DomainState) (s : State) : State :=
  requestHeaderUpdate { s with domains := { s.domains with states := s.domains.states.set d st } }

/-- A domain's regions all take a state (R152, R153). -/
def domainBecomes (d : DomainId) (st : RegionState) (s : State) : State :=
  mapRegions (fun r x => if regionDomain r == d then Region.become st else x) s

/-- A bank loses power (R126, R142). -/
def unpoweredBank (k : Bank) : Bank :=
  { k with state := .unpowered, openRow := none, requests := [], streak := 0, sleepHold := false, standDown := false }

/-- The Refresh Unit's state of a bank that becomes ASLEEP or UNPOWERED, k unchanged (R142, R143). -/
def refreshAtRest (r : RefreshBank) : RefreshBank := { r with account := 0, timer := none, void := false }

/-- The contents of a domain's banks are discarded (R153, log 14). -/
def discardCells (d : DomainId) (m : ArrayCells) : ArrayCells where
  bytes := m.bytes.filter fun c => bankDomain (addrBank c.1) != d
  disturbed := m.disturbed.filter fun c => bankDomain (addrBank (8 * c.1)) != d

/-- The strokes whose bank requests wait in a bank. -/
def waitingStrokes (s : State) (b : BankId) : List StrokeRecord :=
  s.banks[b].requests.filterMap fun q => q.stroke.bind (findStroke s)

/-- A bank goes to UNPOWERED at its domain's drain start (R126, R142). -/
def powerOffBank (b : BankId) (s : State) : State :=
  setRefresh b (refreshAtRest s.refresh.banks[b]) (setBank b (unpoweredBank s.banks[b]) s)

/-- The stroke of a request discarded at a drain start fails (R126), if it is still in flight. -/
def discardStroke (s : State) (r : StrokeRecord) : State :=
  if (findStroke s r.id).isSome then strokeFailed r .regionDropped s else s

/-- The domain's power falls: banks UNPOWERED, regions OFF, k 0, contents discarded (R170 2, R126, R153, R142). -/
def dropPower (d : DomainId) (s : State) : State :=
  handK (upperBank d) (handK (lowerBank d)
    (domainBecomes d .off (powerOffBank (upperBank d) (powerOffBank (lowerBank d)
      { s with array := discardCells d s.array }))))

/-- The drain starts: both banks have stood down (R170 2). That the discarded strokes fail, each with its issue test, grants and end tests, only when the domain, banks, regions and k have changed is the model's choice, log 37; their order is log 5. -/
def startDrain (v : Served) (s : State) : State :=
  let waiting := waitingStrokes s (lowerBank v.domain) ++ waitingStrokes s (upperBank v.domain)
  let s := setDomain v.domain .rampingDown
    { s with domains := { s.domains with serving := some { v with phase := .falling }, rampTimer := some Config.rampDownUs } }
  sleepEntryTest (waiting.foldl discardStroke (lostSetFollow (lostMap s) (dropPower v.domain s)))

/-- The drain begins at the event both banks are stood down (R170 2). -/
def drainTest (s : State) : State :=
  match s.domains.serving with
  | some v => if v.phase == .standingDown && v.lowerDown && v.upperDown then startDrain v s else s
  | none => s

/-- A bank of the served domain reports stood down (R126, R170). -/
def reportStoodDown (b : BankId) (s : State) : State :=
  match s.domains.serving with
  | none => s
  | some v =>
    if v.phase == .standingDown && bankDomain b == v.domain then
      drainTest { s with domains := { s.domains with
        serving := some (if b == lowerBank v.domain then { v with lowerDown := true } else { v with upperDown := true }) } }
    else s

/-! ## Banks coming to rest (R126, R127) -/

/-- A bank's Bank Controller on entering ASLEEP (R127). -/
def asleepBank (k : Bank) : Bank := { k with state := .asleep, openRow := none, streak := 0, sleepHold := false }

/-- A bank enters ASLEEP: it reports ASLEEP, and stood down if stand-down is set (R127, R143). -/
def enterAsleep (b : BankId) (s : State) : State :=
  let s' := sleepEntryTest (setRefresh b (refreshAtRest s.refresh.banks[b]) (setBank b (asleepBank s.banks[b]) s))
  if s.banks[b].standDown then reportStoodDown b s' else s'

/-- A bank has come to IDLE: it sleeps, stands down or decides (R118, R126, R127). -/
def restOrDecide (b : BankId) (s : State) : State :=
  if s.banks[b].sleepHold then enterAsleep b s
  else if s.banks[b].standDown then reportStoodDown b s
  else bankDecide b s

/-- A bank has come to OPEN: it closes for a sleep or stand-down, or decides (R118, R126, R127). -/
def closeOrDecide (b : BankId) (s : State) : State :=
  if s.banks[b].sleepHold || s.banks[b].standDown then
    (if s.banks[b].state == .opened then setBank b (startClose s.banks[b]) s else s)
  else bankDecide b s

/-- A sleep entry reaches a bank (R127). -/
def sleepEntryAt (b : BankId) (s : State) : State :=
  match s.banks[b].state with
  | .unpowered | .asleep => s
  | .idle => enterAsleep b s
  | .opened => setBank b (startClose { s.banks[b] with sleepHold := true }) s
  | .opening | .accessing | .closing | .refreshing => setBank b { s.banks[b] with sleepHold := true } s

/-- The array mode becomes ENTERING_SLEEP and every powered bank receives a sleep entry (R175). -/
def startSleepEntry (s : State) : State :=
  let s := requestHeaderUpdate { s with arrayMode := { s.arrayMode with mode := .enteringSleep, idleTimer := none } }
  sleepEntryTest (allBanks.foldl (fun t b => sleepEntryAt b t) s)

/-- A stand-down request reaches a bank (R126). -/
def standDownAt (b : BankId) (s : State) : State :=
  match s.banks[b].state with
  | .unpowered => s
  | .idle | .asleep => reportStoodDown b (setBank b { s.banks[b] with standDown := true } s)
  | .opened => setBank b (startClose { s.banks[b] with standDown := true }) s
  | .opening | .accessing | .closing | .refreshing => setBank b { s.banks[b] with standDown := true } s

/-! ## The switch controller (R168 to R170) -/

/-- The owning order of a completed request, if present, is complete (R83, R168). -/
def powerComplete (owner : Option OrderName) (s : State) : State :=
  match owner with
  | none => s
  | some n => if laneHolds s n then orderComplete n.lane (plainResult .ok) s else s

/-- The end state of a request (R168). -/
def endState (on : Bool) : DomainState := if on then .on else .off

/-- A ramp-up starts (R169 1). -/
def startRampUp (q : DomainRequest) (s : State) : State :=
  setDomain q.domain .rampingUp
    { s with domains := { s.domains with
        serving := some { domain := q.domain, on := true, owner := some q.order, phase := .rising, lowerDown := false, upperDown := false },
        rampTimer := some Config.rampUpUs } }

/-- A ramp-down starts with its stand-down phase (R170 1). -/
def startStandDown (q : DomainRequest) (s : State) : State :=
  standDownAt (upperBank q.domain) (standDownAt (lowerBank q.domain)
    { s with domains := { s.domains with
        serving := some { domain := q.domain, on := false, owner := some q.order, phase := .standingDown, lowerDown := false, upperDown := false } } })

/-- The request at the head leaves the list. -/
def popRequest (s : State) : State := { s with domains := { s.domains with requests := s.domains.requests.tail } }

/-- The switch controller, IDLE, takes head requests until one begins a ramp or none is left (R168). -/
def takeRequests : Nat → State → State
  | 0, s => s
  | fuel + 1, s =>
    match s.domains.serving, s.domains.requests with
    | none, q :: _ =>
      if s.domains.states[q.domain] = endState q.on then takeRequests fuel (powerComplete (some q.order) (popRequest s))
      else if q.on then startRampUp q (popRequest s)
      else startStandDown q (popRequest s)
    | _, _ => s

def switchTakes (s : State) : State := takeRequests s.domains.requests.length s

/-- The switch controller returns to IDLE, its order complete, and takes the next request (R169, R170 3). -/
def endRamp (v : Served) (s : State) : State :=
  switchTakes (powerComplete v.owner { s with domains := { s.domains with serving := none, rampTimer := none } })

/-- A bank leaves UNPOWERED at its domain's ramp-up completion (R125). -/
def powerUpBank (b : BankId) (s : State) : State :=
  let k : Bank := { state := if s.arrayMode.mode = .run then .idle else .asleep, openRow := none, requests := [], inHand := none,
                    streak := 0, sleepHold := false, standDown := false, rowGroup := s.banks[b].rowGroup }
  setBank b k s

/-- The settle expires (R169 2). -/
def finishRampUp (v : Served) (s : State) : State :=
  endRamp v (bankDecide (upperBank v.domain) (bankDecide (lowerBank v.domain)
    (domainBecomes v.domain .dropped (powerUpBank (upperBank v.domain) (powerUpBank (lowerBank v.domain)
      (setDomain v.domain .on s))))))

/-- The drain expires (R170 3). -/
def finishRampDown (v : Served) (s : State) : State := endRamp v (setDomain v.domain .off s)

/-! ## Wake (R128, R176, R177) -/

/-- The Refresh Unit's state of an ASLEEP bank at the wake completion: account 0, and a fresh interval with k above 0 (R143). -/
def wakeRefresh (c : TempClass) (r : RefreshBank) : RefreshBank :=
  if r.k = 0 then { r with account := 0, timer := none } else startInterval c { r with account := 0 }

/-- An ASLEEP bank at the wake completion (R128, R143). -/
def wakeBank (b : BankId) (s : State) : State :=
  if s.banks[b].state == .asleep then
    setRefresh b (wakeRefresh s.refresh.tempClass s.refresh.banks[b])
      (setBank b { s.banks[b] with state := .idle, openRow := none, streak := 0 } s)
  else s

/-- The mode becomes RUN and every ASLEEP bank goes to IDLE (R176 1, 2). -/
def wakeBanks (s : State) : State :=
  allBanks.foldl (fun t b => wakeBank b t)
    (requestHeaderUpdate { s with arrayMode := { s.arrayMode with mode := .run, wakeTimer := none } })

/-- The wake's completion up to the start tests: the arbiters decide, or a forced sleep entry follows at the same event (R176, R177, log 8). -/
def finishWake (s : State) : State :=
  if s.arrayMode.forcedSleep then
    startSleepEntry (wakeBanks { s with arrayMode := { s.arrayMode with forcedSleep := false } })
  else allBanks.foldl (fun t b => bankDecide b t) (wakeBanks s)

end Sys2Proof.Machine
end

