-- ==== Sys2Proof/Machine/TableOps.lean ====
section
/-! DEFINITION. Shared operations of Admission and the Interlock: promotion, the start test, starting an order, MARK, cancel, and the event frame of a command that may move table entries. -/

namespace Sys2Proof.Machine

/-! ## The interlock (R77) -/

/-- Whether the entry of lane `m` holds back order `x` of lane `l` with footprint `f` (R77). -/
def holdsBack (s : State) (l : Lane) (x : PoolOrder) (f : Footprint) (m : Lane) : Bool :=
  !(m == l) &&
    match laneEntry s m, laneOrder s m with
    | some e, some y =>
      (e.footprint.any fun g => g.conflicts f) && (seqBefore y.seq x.seq || y.life == .running || y.life == .stopping)
    | _, _ => false

def interlockFails (s : State) (l : Lane) (x : PoolOrder) (f : Footprint) : Bool := allLanes.any (holdsBack s l x f)

/-! ## Start-time checks (R79) -/

/-- What a region's state makes of an order of this kind: none is allowed (R79). -/
def startState (k : OrderKind) (st : RegionState) : Option OutcomeCode :=
  match k, st with
  | .power, _ | .mark, _ => none
  | .retain, .off => some .domainOff
  | .retain, _ => none
  | _, .kept => none
  | _, .off => some .domainOff
  | _, .lost => some .regionLost
  | _, .dropped | _, .arming => some .regionDropped

/-- The outcome of the lowest-numbered region whose state is not allowed (R79). -/
def startCheck (s : State) (k : OrderKind) (f : Footprint) : Option OutcomeCode :=
  f.regions.findSome? fun r => startState k (regionState s r)

/-! ## Start (R82) -/

/-- The generator of a starting data order (R92). -/
def dataGenerator (e : EntryWords) : Generator :=
  { nextStroke := 0, strokeCount := e.length / 64, issuing := true, prefixLen := 0, ahead := [], barrier := none, armingList := [] }

/-- The generator of a starting RETAIN KEEP (R155). -/
def armingGenerator (list : List RegionId) : Generator :=
  { nextStroke := 0, strokeCount := Config.sweepStrokes * list.length, issuing := true, prefixLen := 0, ahead := [], barrier := none,
    armingList := list }

/-- The selected regions a KEEP brings to ARMING, ascending (R155). -/
def armingListOf (s : State) (f : Footprint) : List RegionId :=
  f.regions.filter fun r => regionState s r == .dropped || regionState s r == .lost

/-- A RETAIN DROP at its start event (R154). -/
def startDrop (l : Lane) (f : Footprint) (s : State) : State :=
  toReporting l (plainResult .ok)
    (lostSetFollow (lostMap s) (handAllK
      (mapRegions (fun r x => if f.regions.contains r && (x.state == .kept || x.state == .lost) then Region.become .dropped else x) s)))

/-- A RETAIN KEEP at its start event (R155). -/
def startKeep (l : Lane) (o : PoolOrder) (f : Footprint) (s : State) : State :=
  let list := armingListOf s f
  if list.isEmpty then toReporting l (plainResult .ok) s
  else
    issueMore l (setGenerator l (some (armingGenerator list))
      (lostSetFollow (lostMap s) (handAllK
        (mapRegions (fun r x => if list.contains r then { state := .arming, owner := some { lane := l, seq := o.seq }, sweep := 0 } else x) s))))

/-- A POWER order at its start event (R82, R167, R171). -/
def startPower (l : Lane) (o : PoolOrder) (s : State) : State :=
  if s.domains.states[o.entry.domain] = endState o.entry.powerOn then toReporting l (plainResult .ok) s
  else
    switchTakes { s with domains := { s.domains with
      requests := s.domains.requests ++ [{ domain := o.entry.domain, on := o.entry.powerOn, order := { lane := l, seq := o.seq } }] } }

/-- A lane's order starts: RUNNING, and handed to the block that does its work (R80, R82). That its grants (R98) are all made before another lane's order starts at the same event is the model's choice, log 38. -/
def startOrder (l : Lane) (o : PoolOrder) (k : OrderKind) (f : Footprint) (s : State) : State :=
  let s := updateLane l (fun o => { o with life := .running }) (fun e => { e with wait := none, started := true }) s
  match k with
  | .load | .fetch | .copy | .fill | .scrub => issueMore l (setGenerator l (some (dataGenerator o.entry)) s)
  | .retain => if o.entry.keep then startKeep l o f s else startDrop l f s
  | .power => startPower l o s
  | .mark => s

/-! ## The start test (R80) -/

def setWait (l : Lane) (w : WaitReason) (s : State) : State := updateLane l id (fun e => { e with wait := some w }) s

/-- The parts of the start test, for a WAITING order with its footprint (R80). -/
def testOrder (l : Lane) (o : PoolOrder) (k : OrderKind) (f : Footprint) (s : State) : State :=
  if interlockFails s l o f then setWait l .interlock s
  else
    match startCheck s k f with
    | some c => toReporting l (plainResult c) s
    | none => if s.arrayMode.mode == .run then startOrder l o k f s else wakeFollow (setWait l .array s)

/-- The start test of a lane's entry: of a WAITING order that is no MARK, the engine not being HALTED (R78, R80, R88). -/
def runStartTest (l : Lane) (s : State) : State :=
  match laneEntry s l, laneOrder s l with
  | some e, some o =>
    match e.footprint, o.kind with
    | some f, some k =>
      if o.life == .waiting && !(k == .mark) && !engineIs s .halted then testOrder l o k f s else s
    | _, _ => s
  | _, _ => s

/-- One round of start tests, lane by lane, each start whole with its grants before the next lane's test (R78, logs 5 and 38). -/
def testLanes (s : State) : State := allLanes.foldl (fun t l => runStartTest l t) s

/-- The start tests of one event: a lane that leaves WAITING may let another start, so four rounds settle four lanes (R78). -/
def startTests (s : State) : State := testLanes (testLanes (testLanes (testLanes s)))

/-- What R78 watches: each entry's order, state and footprint. -/
def tableView (s : State) : List (Option (SlotId × Option Lifecycle × Bool)) :=
  allLanes.map fun l => (laneEntry s l).map fun e => (e.slot, laneLife s l, e.footprint.isSome)

/-- The start tests are made if an entry changed state or a footprint was removed since `before` (R78). -/
def retestIfMoved (before s : State) : State := if tableView s = tableView before then s else startTests s

/-! ## MARK (R58) -/

/-- A MARK in WAITING finishes when the oldest-open sequence equals its own (R58). -/
def markTest (l : Lane) (s : State) : State :=
  match laneOrder s l with
  | some o =>
    if laneWaits s l .earlier && o.kind == some .mark && s.pool.oldestOpen == o.seq && !engineIs s .halted then
      toReporting l (plainResult .ok) s
    else s
  | none => s

def markTests (s : State) : State := allLanes.foldl (fun t l => markTest l t) s

/-! ## Promotion (R54, R55, R71, R73) -/

def placeEntry (l : Lane) (i : SlotId) (f : Option Footprint) (w : Option WaitReason) (s : State) : State :=
  setEntry l (some { slot := i, wait := w, footprint := f, started := false }) s

/-- Admission of a promoted order without a cancel mark (R71, R73). -/
def enterTable (l : Lane) (i : SlotId) (o : PoolOrder) (s : State) : State :=
  match staticCheck o.entry, o.kind with
  | some reason, _ => toReporting l { outcome := .badOrder, reason := reason, corrected := 0, done := 0 } (placeEntry l i none none s)
  | none, some .mark => markTest l (placeEntry l i (some (footprintOf o.entry .mark)) (some .earlier) s)
  | none, some k => runStartTest l (placeEntry l i (some (footprintOf o.entry k)) none s)
  | none, none => s

/-- The head of a lane queue moves into the lane's EMPTY entry (R54, R55). -/
def promote (l : Lane) (s : State) : State :=
  match laneEntry s l, s.pool.queues[l] with
  | none, i :: rest =>
    match slotOrder s i with
    | some o =>
      if engineLive s then
        let s := { s with pool := { s.pool with queues := s.pool.queues.set l rest } }
        if o.cancelMark then toReporting l (plainResult .cancelled) (placeEntry l i none none s)
        else enterTable l i o (setSlot i (some { o with life := .waiting }) s)
      else s
    | none => s
  | _, _ => s

/-! ## Cancel (R60 to R64) -/

def setCancelStatus (c : CancelStatus) (s : State) : State := { s with port := { s.port with cancelStatus := c } }

/-- A cancel of an order not yet taken (R61). -/
def cancelUntaken (q : Word) (s : State) : State :=
  if s.pool.cancelList.contains q then setCancelStatus .accepted s
  else if s.pool.cancelList.length < Config.maxCancels then
    setCancelStatus .accepted { s with pool := { s.pool with cancelList := s.pool.cancelList ++ [q] } }
  else setCancelStatus .refusedFull s

/-- Remove an order's request from the domain request list (R167). -/
def withdrawRequest (n : OrderName) (s : State) : State :=
  { s with domains := { s.domains with requests := s.domains.requests.filter fun q => !(q.order == n) } }

/-- A cancel of a RUNNING order (R64). -/
def cancelRunning (l : Lane) (o : PoolOrder) (s : State) : State :=
  if rampOf s { lane := l, seq := o.seq } then setCancelStatus .missed s
  else toStopping l (some .cancelled) (withdrawRequest { lane := l, seq := o.seq } (setCancelStatus .applied s))

/-- A cancel of an order in the pool (R60 3, R63, R64). -/
def cancelTaken (i : SlotId) (o : PoolOrder) (s : State) : State :=
  match o.life with
  | .queued => setCancelStatus .applied (setSlot i (some { o with cancelMark := true }) s)
  | .waiting => toReporting o.entry.lane (plainResult .cancelled) (setCancelStatus .applied s)
  | .running => cancelRunning o.entry.lane o s
  | .stopping | .reporting => setCancelStatus .missed s

/-- A CANCEL write is classified and applied (R60). -/
def cancelOrder (q : Word) (s : State) : State :=
  if !engineLive s then setCancelStatus .refusedState s
  else if (q - s.pool.taken).toNat < 2147483648 then cancelUntaken q s
  else
    match findSeq s q with
    | none => setCancelStatus .missed s
    | some i =>
      match slotOrder s i with
      | some o => cancelTaken i o s
      | none => setCancelStatus .missed s

/-! ## The engine's halt (R88, R193) -/

/-- A RUNNING entry at the halt: a queued POWER request is withdrawn and the order goes to STOPPING with no cause (R88). -/
def haltLane (l : Lane) (s : State) : State :=
  match laneOrder s l with
  | none => s
  | some o => if o.life == .running then toStopping l none (withdrawRequest { lane := l, seq := o.seq } s) else s

/-! ## The frame of an event -/

/-- What every event that may move table entries ends with: start tests (R78), the idle timer (R174), the master channel's arbiter (R186). That the tests of R78 come after the event's own effect `f`, a promotion with its start test among it, is the model's choice, log 33. -/
def tableEvent (f : State → State) (s : State) : State := issueAccess (idleFollow (retestIfMoved s (f s)))

end Sys2Proof.Machine
end

