-- ==== Sys2Proof/Machine/IntakeOps.lean ====
section
/-! DEFINITION. Shared operations of the Order Intake, page release and the engine's starts and stops (chapters 2 and 10, R19, R20). -/

namespace Sys2Proof.Machine

/-! ## Reads and states of the intake -/

/-- READING, with the read of a step queued (R31, R35, R36, R38). -/
def queueRead (step : ReadStep) (s : State) : State :=
  placeRequest (.intakeRead step)
    { s with intake := { s.intake with state := .reading, readStep := some step, pollTimer := none } }

/-- The intake enters WATCH: the poll timer starts and a header update is requested; with nudge-pending it goes straight to a tally read (R24, R28, R30). -/
def enterWatch (s : State) : State :=
  let s := requestHeaderUpdate
    { s with intake := { s.intake with state := .watch, readStep := none, pollTimer := pollIntervalUs s.port.poll } }
  if s.intake.nudgePending then queueRead .tally s else s

/-- The intake enters a stall with no read queued (R24, R34, R37). -/
def enterStall (st : IntakeState) (s : State) : State :=
  requestHeaderUpdate { s with intake := { s.intake with state := st, readStep := none, pollTimer := none } }

/-- Entry to BROKEN (R45). -/
def breakIntake (reason : IntakeFault) (step : ReadStep) (s : State) : State :=
  requestHeaderUpdate (setFault
    { s with intake := { s.intake with state := .broken, readStep := none, pollTimer := none, faultReason := reason, failedStep := some step } })

/-! ## The walk (R33 to R37) -/

/-- The new-page step once the record check has passed (R34). -/
def goToPage (s : State) : State :=
  if s.intake.pageEntered then queueRead .next s
  else queueRead .header { s with intake := { s.intake with candidate := s.intake.currentPage } }

/-- The pool check (R37). -/
def poolCheck (s : State) : State := if (freeSlot s).isSome then queueRead .entry s else enterStall .stalledPool s

/-- The new-page step (R34). -/
def newPageStep (s : State) : State :=
  if Config.maxRecords ≤ s.intake.records.length then enterStall .stalledPages s else goToPage s

/-- A take begins (R33). -/
def beginTake (s : State) : State :=
  if !s.intake.pageEntered || s.intake.nextSlot == Config.pageSlots then newPageStep s else poolCheck s

/-- After a take: the next one, or the catch-up tally read (R32). -/
def afterTake (s : State) : State :=
  if s.intake.expected = s.intake.target then queueRead .tally s else beginTake s

/-! ## Stopping and resuming (R26, R27) -/

/-- The intake goes to OFF (R26). -/
def intakeOff (s : State) : State :=
  { s with intake := { s.intake with state := .off, readStep := none, pollTimer := none, nudgePending := false, failedStep := none } }

/-- The intake stops at a disable or halt (R26). -/
def stopIntake (s : State) : State :=
  if intakeOutstanding s then
    { s with intake := { s.intake with pollTimer := none, nudgePending := false, readAbandoned := true } }
  else
    intakeOff { s with channel := { s.channel with queue := s.channel.queue.filter fun r => !r.isIntake } }

/-- The INTAKE read left outstanding at a disable ends: its result is discarded (R26, R27). -/
def endAbandonedRead (s : State) : State :=
  let s := { s with intake := { s.intake with readAbandoned := false } }
  if engineIs s .running then enterWatch s else intakeOff s

/-- The result of an intake read is acted on, or discarded when a disable came while it was outstanding (R26). -/
def intakeResult (f : State → State) (s : State) : State := if s.intake.readAbandoned then endAbandonedRead s else f s

/-! ## Draining (R191) -/

/-- The three conditions at which a draining engine reaches DISABLED (R191). -/
def drained (s : State) : Bool :=
  engineIs s .draining && decide (occupied s = 0) && !reportHeld s && !intakeOutstanding s

/-- The DISABLED event of a drain (R191, R68, R20). -/
def reachDisabled (s : State) : State :=
  setDrained { s with
    engine := { s.engine with state := .disabled }
    pool := { s.pool with cancelList := [] }
    intake := { s.intake with records := [] } }

def drainedTest (s : State) : State := if drained s then reachDisabled s else s

/-! ## The halt (R88, R193, R190) -/

/-- The engine enters HALTED (R190, R193). -/
def enterHalted (reason : HaltReason) (s : State) : State :=
  setFault { s with engine := { state := .halted, haltReason := reason } }

/-- A failed REPORT access halts the engine (R193). -/
def haltOnReport (s : State) : State :=
  allLanes.foldl (fun t l => haltLane l t) (stopIntake (enterHalted .reportBus s))

/-! ## Page release (R19, R20) -/

/-- The oldest page record qualifies for release (R19). -/
def releaseDue (s : State) : Bool :=
  engineLive s && !s.reporting.releaseInProgress &&
    match s.intake.records.head? with
    | some p => p.left && p.finishedCount == p.takenCount
    | none => false

/-- The release condition is tested (R19). -/
def releaseTest (s : State) : State :=
  if releaseDue s then placeRequest .release { s with reporting := { s.reporting with releaseInProgress := true } } else s

/-! ## Enable and disable (R189 to R192) -/

/-- ENABLE 1 to 0 with the engine RUNNING (R191). -/
def disableEngine (s : State) : State := drainedTest (stopIntake { s with engine := { s.engine with state := .draining } })

/-- ENABLE 0 to 1 with the engine DRAINING (R192, R27). -/
def resumeEngine (s : State) : State :=
  let s := { s with engine := { s.engine with state := .running } }
  if s.intake.readAbandoned then s else enterWatch s

/-- ENABLE 0 to 1 with the engine DISABLED (R189). -/
def startEngine (s : State) : State :=
  placeRequest .startRead { s with engine := { state := .starting, haltReason := .noReason } }

/-- An ENABLE change acts by the engine state (R182, R189 to R192). -/
def enableChanged (on : Bool) (s : State) : State :=
  match s.engine.state, on with
  | .disabled, true => startEngine s
  | .draining, true => resumeEngine s
  | .running, false => disableEngine s
  | .disabled, false | .draining, false | .running, true | .starting, _ | .halted, _ => s

/-! ## Failure of an access (R188) -/

/-- A failed intake read (R44). -/
def intakeReadFails (step : ReadStep) (s : State) : State := drainedTest (intakeResult (breakIntake .bus step) s)

/-- A failed DATA access fails its stroke (R101, R102, R188). -/
def dataFails (i : StrokeId) (s : State) : State :=
  match findStroke s i with
  | some r => strokeFailed r .hostBusFault s
  | none => s

/-- A failed access by its class; the channel no longer holds it (R188). -/
def accessFails (r : Request) (s : State) : State :=
  match r with
  | .startRead => enterHalted .start s
  | .intakeRead step => intakeReadFails step s
  | .result _ | .estate _ | .headerUpdate | .release => haltOnReport s
  | .hostRead i | .hostWrite i => dataFails i s

end Sys2Proof.Machine
end

