-- ==== Sys2Proof/Machine/ResetCmds.lean ====
section
/-! DEFINITION. Meanings of the resets: POWER_ON_RESET, PIN_RESET, RESET_N_RELEASE, and the engine reset that ENGINE_RESET takes (section 10.6). -/

namespace Sys2Proof.Machine

/-- A bank's pending set is emptied; the access in hand goes on, its result handed to no stroke (R130, R131, R124). -/
def abandonRequests (k : Bank) : Bank :=
  { k with requests := [], inHand := k.inHand.map fun q => { q with stroke := none } }

/-- The domain requests are discarded and the ramp in flight loses its owning order (R172). -/
def abandonRamps (d : DomainControl) : DomainControl :=
  { d with requests := [], serving := d.serving.map fun v => { v with owner := none } }

/-- The channel is idle; tags go on (R195, log 11). -/
def idleChannel (c : Channel) : Channel := { queue := [], outstanding := none, nextTag := c.nextTag }

/-- Every ARMING region goes to DROPPED, and the lower k of its bank is handed to the Refresh Unit (R165, R151, which R134 leaves the events to), at an engine reset too: R130 and R149, which say that it changes neither accounts nor k, are read as giving way there, log 30. -/
def dropAllArming (s : State) : State :=
  if allRegions.any fun r => regionState s r == .arming then
    handAllK (mapRegions (fun _ r => if r.state == .arming then Region.become .dropped else r) s)
  else s

/-- What engine reset and pin reset do alike (R22, R47, R69, R89, R113, R130, R131, R165, R172, R195). -/
def resetBlocks (s : State) : State :=
  dropAllArming { s with
    engine := { s.engine with state := .disabled }
    channel := idleChannel s.channel
    reporting := Reporting.reset
    intake := Intake.reset
    pool := Pool.reset
    table := Vector.replicate 4 none
    strokes := StrokeEngine.reset
    banks := Vector.ofFn fun b : BankId => abandonRequests s.banks[b]
    domains := abandonRamps s.domains }

/-- The registers at an engine reset: ENABLE 0, CANCEL status 0, NOTIFY, FAULT and DRAINED pending cleared (R182, R184, R69). -/
def engineResetPort (p : PortRegs) : PortRegs :=
  { p with enable := false, cancelStatus := .noWrite, notifyPending := false, faultPending := false, drainedPending := false }

/-- The engine reset of R194: the halt reason is kept (R183), and in RUN the idle timer restarts (R178). -/
def engineReset (s : State) : State := idleRestart (resetBlocks { s with port := engineResetPort s.port })

/-- The array mode at a pin reset (R177). -/
def forceSleep (s : State) : State :=
  match s.arrayMode.mode with
  | .run => startSleepEntry s
  | .enteringSleep | .asleep => s
  | .waking => { s with arrayMode := { s.arrayMode with forcedSleep := true } }

/-- A pin reset (R194): registers and halt reason at their reset values, the array forced toward sleep. -/
def pinReset (s : State) : State :=
  forceSleep (resetBlocks { s with port := { PortRegs.reset with resetHeld := true }, engine := EngineRegs.reset })

/-- POWER_ON_RESET (R194): every block at its power-on values; the commands waiting and the next tag are kept (log 18). -/
def execPowerOnReset (s : State) : Outcome :=
  .next { State.reset with channel := idleChannel s.channel, pending := s.pending }

/-- PIN_RESET (R194): one assertion of RESET_N gives one reset (log 21). -/
def execPinReset (s : State) : Outcome := .next (if s.port.resetHeld then s else pinReset s)

/-- RESET_N_RELEASE (R194): the window resumes normal answering. -/
def execResetNRelease (s : State) : Outcome := .next { s with port := { s.port with resetHeld := false } }

end Sys2Proof.Machine
end

