-- ==== Sys2Proof/WellFormed.lean ====
section
/-! DEFINITION. Which commands are well formed: the written word of a CONTROL row agrees with the row's name, and REGISTER_WRITE_OTHER is a write the window ignores. -/

namespace Sys2Proof

/-- CONTROL.ENABLE of a written word (R181). -/
def controlEnable (v : Word) : Bool := v.getLsbD 0
/-- CONTROL.ENGINE_RESET of a written word (R181). -/
def controlReset (v : Word) : Bool := v.getLsbD 1

/-- The writes R180 and R182 ignore: narrower than 32 bits, at an unaligned offset, to STATUS or to a reserved offset. -/
def ignoredWrite (offset : BitVec 5) (size : AccessSize) : Bool :=
  size != AccessSize.word || offset.toNat % 4 != 0 || offset == 0x10#5 || offset == 0x18#5 || offset == 0x1C#5

/-- A well-formed command. -/
def Instr.wellFormed : Instr → Bool
  | .engineReset v => controlReset v
  | .engineEnable v => controlEnable v && !controlReset v
  | .engineDisable v => !controlEnable v && !controlReset v
  | .pollSet v => !controlReset v
  | .idleSleepSet v => !controlReset v
  | .responseSet v => !controlReset v
  | .registerWriteOther offset size _ => ignoredWrite offset size
  | .powerOnReset | .pinReset | .resetNRelease | .exbaseWrite _ | .nudge _ | .cancel _ | .eventsWrite _
  | .pollTimerExpiry | .accessIssue | .responseLimitExpiry | .staleResponseDiscard _
  | .startReadComplete _ _ _ | .startReadFail _ | .tallyReadComplete _ _ | .nextReadComplete _ _
  | .firstSeqReadComplete _ _ | .entryReadComplete _ _ | .intakeReadFail _ | .stalledPoolEnd | .stalledPagesEnd
  | .resultWriteComplete _ | .estateWriteComplete _ | .headerUpdateComplete _ | .releaseRequest
  | .releaseWriteComplete _ | .reportAccessFail _ | .dataAccessFail _ | .engineDrained | .promotion _
  | .startTest _ | .markFinish _ | .stoppingEnd _ | .bufferGrant | .strokeIssue _ | .loadHostReadComplete _ _
  | .fetchHostWriteComplete _ | .bankArbiterDecision _ | .bankOpenComplete _ | .bankAccessComplete _ _
  | .bankCloseComplete _ | .refreshComplete _ | .tick _ | .sampleTimerExpiry _ | .switchTake | .rampUpComplete
  | .drainStart | .rampDownComplete | .idleTimerExpiry | .sleepEntryComplete | .wakeTimerExpiry => true

end Sys2Proof
end

