-- ==== Sys2Proof/Machine/RegisterCmds.lean ====
section
/-! DEFINITION. Meanings of the register writes (R28, R29, R59, R180, R182, R184). While RESET_N is held after a pin reset every write is ignored (R180). -/

namespace Sys2Proof.Machine

/-! ## CONTROL (R182) -/

/-- The written value with ENGINE_RESET 1 (log 4). -/
def asReset (v : Word) : Word := v ||| 2#32
/-- The written value with ENGINE_RESET 0 (log 4). -/
def asFields (v : Word) : Word := v &&& 0xFFFFFFFD#32
/-- The written value with ENABLE 1 and ENGINE_RESET 0 (log 4). -/
def asEnable (v : Word) : Word := asFields v ||| 1#32
/-- The written value with ENABLE 0 and ENGINE_RESET 0 (log 4). -/
def asDisable (v : Word) : Word := v &&& 0xFFFFFFFC#32

/-- The CONTROL fields of a write with ENGINE_RESET 0 (R181). -/
def writtenFields (v : Word) (p : PortRegs) : PortRegs :=
  { p with enable := controlEnable v, poll := v.extractLsb' 4 2, idleSleep := v.extractLsb' 8 3, response := v.extractLsb' 12 3 }

/-- A changed POLL code restarts the poll timer in WATCH (R28). -/
def pollChanged (before : BitVec 2) (s : State) : State :=
  if s.port.poll ≠ before ∧ s.intake.state = .watch then
    { s with intake := { s.intake with pollTimer := pollIntervalUs s.port.poll } }
  else s

/-- A changed IDLE_SLEEP code restarts, starts or stops the idle timer (R174). -/
def idleCodeChanged (before : BitVec 3) (s : State) : State := if s.port.idleSleep ≠ before then idleRestart s else s

/-- A changed ENABLE is an event for the engine (R182). -/
def enableFollow (before : Bool) (s : State) : State :=
  if s.port.enable ≠ before then enableChanged s.port.enable s else s

/-- A write to CONTROL (R182). -/
def writeControl (v : Word) (s : State) : State :=
  if s.port.resetHeld then s
  else if controlReset v then engineReset s
  else
    issueAccess (enableFollow s.port.enable (idleCodeChanged s.port.idleSleep (pollChanged s.port.poll
      { s with port := writtenFields v s.port })))

/-- ENGINE_RESET (R194). -/
def execEngineReset (v : Word) (s : State) : Outcome := .next (writeControl (asReset v) s)
/-- ENGINE_ENABLE (R189, R192). -/
def execEngineEnable (v : Word) (s : State) : Outcome := .next (writeControl (asEnable v) s)
/-- ENGINE_DISABLE (R191). -/
def execEngineDisable (v : Word) (s : State) : Outcome := .next (writeControl (asDisable v) s)
/-- POLL_SET (R28). -/
def execPollSet (v : Word) (s : State) : Outcome := .next (writeControl (asFields v) s)
/-- IDLE_SLEEP_SET (R174). -/
def execIdleSleepSet (v : Word) (s : State) : Outcome := .next (writeControl (asFields v) s)
/-- RESPONSE_SET (R182): accesses issued from now on take the new limit (R186). -/
def execResponseSet (v : Word) (s : State) : Outcome := .next (writeControl (asFields v) s)

/-! ## The other registers -/

/-- EXBASE_WRITE (R182): stored only while the engine is DISABLED. -/
def execExbaseWrite (v : Word) (s : State) : Outcome :=
  .next (if s.port.resetHeld || !engineIs s .disabled then s
    else { s with port := { s.port with exbase := v.extractLsb' 6 26 } })

def setNudge (s : State) : State := { s with intake := { s.intake with nudgePending := true } }

/-- A retry from BROKEN: the read named by the failed step (R46). -/
def retryIntake (s : State) : State :=
  match s.intake.failedStep with
  | some step => queueRead step { s with intake := { s.intake with faultReason := .noFault, failedStep := none } }
  | none => s

/-- A NUDGE with the engine RUNNING, by intake state (R29). -/
def nudgeIntake (s : State) : State :=
  match s.intake.state with
  | .watch => queueRead .tally s
  | .reading | .stalledPool | .stalledPages => setNudge s
  | .broken => retryIntake s
  | .off => s

/-- NUDGE (R29): the written value is not used. -/
def execNudge (_v : Word) (s : State) : Outcome :=
  .next (if s.port.resetHeld || !engineIs s .running then s else issueAccess (nudgeIntake s))

/-- CANCEL (R59, R60). -/
def execCancel (q : Word) (s : State) : Outcome := .next (if s.port.resetHeld then s else tableEvent (cancelOrder q) s)

/-- EVENTS after a write: pending bits written 1 clear, the enable bits take the written values (R184). -/
def eventsWritten (v : Word) (p : PortRegs) : PortRegs :=
  { p with
    notifyPending := p.notifyPending && !v.getLsbD 0
    alertPending := p.alertPending && !v.getLsbD 1
    faultPending := p.faultPending && !v.getLsbD 2
    drainedPending := p.drainedPending && !v.getLsbD 3
    notifyEnable := v.getLsbD 8
    alertEnable := v.getLsbD 9
    faultEnable := v.getLsbD 10
    drainedEnable := v.getLsbD 11 }

/-- EVENTS_WRITE (R184). -/
def execEventsWrite (v : Word) (s : State) : Outcome :=
  .next (if s.port.resetHeld then s else { s with port := eventsWritten v s.port })

/-- REGISTER_WRITE_OTHER (R180, R182): a narrow or unaligned write, or one to STATUS or a reserved offset, is ignored. -/
def execRegisterWriteOther (_offset : BitVec 5) (_size : AccessSize) (_v : Word) (s : State) : Outcome := .next s

end Sys2Proof.Machine
end

