-- ==== Sys2Proof/Machine/ChannelCmds.lean ====
section
/-! DEFINITION. Meanings of the master channel's events and the engine's start: issue, expiry, stale responses, the start read, failures handed to a stroke or the engine (R186 to R193). -/

namespace Sys2Proof.Machine

/-- A response: the outstanding access leaves the channel and `f` acts on it, with all that follows; a response that no access of this sort awaits has no effect (R187, log 2). -/
def onResponse (tag : Nat) (sort : Request → Bool) (f : Access → State → State) (s : State) : State :=
  match acceptResponse tag sort s with
  | some (a, t) => tableEvent (f a) t
  | none => s

/-- The failure of an access, with everything that follows at its event (R188). -/
def failResponse (tag : Nat) (sort : Request → Bool) (s : State) : State :=
  onResponse tag sort (fun a => accessFails a.request) s

def Request.isStart : Request → Bool
  | .startRead => true
  | .intakeRead _ | .result _ | .estate _ | .headerUpdate | .release | .hostRead _ | .hostWrite _ => false

def Request.isStep : Request → Bool
  | .intakeRead _ => true
  | .startRead | .result _ | .estate _ | .headerUpdate | .release | .hostRead _ | .hostWrite _ => false

def Request.isData (r : Request) : Bool := r.dataStroke.isSome

/-- ACCESS_ISSUE (R186). -/
def execAccessIssue (s : State) : Outcome := .next (issueAccess s)

/-- The first expiry carries the same access again with the same tag and limit (R187). -/
def reissue (a : Access) (s : State) : State :=
  { s with channel := { s.channel with outstanding := some { a with stage := .reissued } } }

/-- An expiry of the response limit: the second one fails the access (R187). -/
def expire (a : Access) (s : State) : State :=
  match a.stage with
  | .first => reissue a s
  | .reissued => tableEvent (accessFails a.request) { s with channel := { s.channel with outstanding := none } }

/-- RESPONSE_LIMIT_EXPIRY (R187). -/
def execResponseLimitExpiry (s : State) : Outcome :=
  .next (match s.channel.outstanding with
    | some a => expire a s
    | none => s)

/-- STALE_RESPONSE_DISCARD (R187): no effect. -/
def execStaleResponseDiscard (_tag : Nat) (s : State) : Outcome := .next s

/-! ## The engine start (R190, R25) -/

/-- FIRST_PAGE is nonzero and 512-byte aligned (R190). -/
def validPage (w : Word) : Bool := w != 0 && w.extractLsb' 0 9 == 0

/-- The intake initialises itself (R25). -/
def startIntake (firstPage : Word) (i : Intake) : Intake :=
  { i with expected := 0, target := 0, currentPage := firstPage, pageEntered := false, nextSlot := 0, records := [],
           faultReason := .noFault, nudgePending := true, readAbandoned := false }

/-- The engine passes from STARTING to RUNNING (R190, R9, R25, R16). -/
def beginRun (firstPage : Word) (s : State) : State :=
  enterWatch (requestHeaderUpdate { s with
    engine := { s.engine with state := .running }
    pool := { s.pool with taken := 0, finished := 0, oldestOpen := 0 }
    reporting := { s.reporting with released := 0 }
    intake := startIntake firstPage s.intake })

/-- The start read completes (R190). -/
def startReadDone (firstPage : Word) (s : State) : State :=
  if !validPage firstPage then enterHalted .start s
  else if s.port.enable then beginRun firstPage s
  else disableEngine (beginRun firstPage s)

/-- START_READ_COMPLETE (R190): POSTED is not used. -/
def execStartReadComplete (tag : Nat) (_posted firstPage : Word) (s : State) : Outcome :=
  .next (onResponse tag Request.isStart (fun _ => startReadDone firstPage) s)

/-- START_READ_FAIL (R190). -/
def execStartReadFail (tag : Nat) (s : State) : Outcome := .next (failResponse tag Request.isStart s)

/-- REPORT_ACCESS_FAIL (R193). -/
def execReportAccessFail (tag : Nat) (s : State) : Outcome := .next (failResponse tag Request.isReport s)

/-- DATA_ACCESS_FAIL (R188). -/
def execDataAccessFail (tag : Nat) (s : State) : Outcome := .next (failResponse tag Request.isData s)

/-- ENGINE_DRAINED (R191): the engine is DISABLED once its three conditions hold. -/
def execEngineDrained (s : State) : Outcome := .next (drainedTest s)

end Sys2Proof.Machine
end

