-- ==== Sys2Proof/Machine/IntakeCmds.lean ====
section
/-! DEFINITION. Meanings of the Order Intake's events (chapter 2). -/

namespace Sys2Proof.Machine

/-- A completed intake read of one step. -/
def Request.isRead (step : ReadStep) : Request → Bool
  | .intakeRead x => x == step
  | .startRead | .result _ | .estate _ | .headerUpdate | .release | .hostRead _ | .hostWrite _ => false

/-- The completion of an intake read: its result is acted on unless a disable has abandoned it (R26), and a draining engine tests for DISABLED (R191). -/
def readComplete (tag : Nat) (step : ReadStep) (f : State → State) (s : State) : State :=
  onResponse tag (Request.isRead step) (fun _ t => drainedTest (intakeResult f t)) s

/-- A NUDGE that will act falls together with the command now taken: it is the next one waiting (R29, R30, log 29). -/
def nudgeFollows (s : State) : Bool :=
  match s.pending with
  | .nudge _ :: _ => engineIs s .running && !s.port.resetHeld
  | _ => false

/-- The poll timer's expiry in WATCH (R28): the tally read is issued at this event (R186), but at that of a NUDGE falling together with it (R30). -/
def pollExpires (s : State) : State :=
  if s.intake.state = .watch ∧ s.intake.pollTimer.isSome then
    if nudgeFollows s then queueRead .tally s else issueAccess (queueRead .tally s)
  else s

/-- POLL_TIMER_EXPIRY (R28). -/
def execPollTimerExpiry (s : State) : Outcome := .next (pollExpires s)

def setTarget (p : Word) (s : State) : State := { s with intake := { s.intake with target := p } }

/-- A tally read completes with P (R31). -/
def tallyDone (p : Word) (s : State) : State :=
  let d := (p - s.intake.expected).toNat
  if d = 0 then enterWatch (setTarget p s)
  else if d < 2147483648 then beginTake (setTarget p s)
  else breakIntake .tally .tally s

/-- TALLY_READ_COMPLETE (R31). -/
def execTallyReadComplete (tag : Nat) (posted : Word) (s : State) : Outcome :=
  .next (readComplete tag .tally (tallyDone posted) s)

/-- A NEXT read completes with N (R35). -/
def nextDone (n : Word) (s : State) : State :=
  if n = 0 then breakIntake .noNext .next s
  else if !validPage n then breakIntake .pageMismatch .next s
  else queueRead .header { s with intake := { s.intake with candidate := n } }

/-- NEXT_READ_COMPLETE (R35). -/
def execNextReadComplete (tag : Nat) (next : Word) (s : State) : Outcome :=
  .next (readComplete tag .next (nextDone next) s)

/-- Change the youngest page record. -/
def updateYoungest (f : PageRecord → PageRecord) : List PageRecord → List PageRecord
  | [] => []
  | [p] => [f p]
  | p :: q :: rest => p :: updateYoungest f (q :: rest)

/-- The page that was current is left (R36 1). -/
def leavePage (s : State) : State :=
  if s.intake.pageEntered then
    releaseTest { s with intake := { s.intake with records := updateYoungest (fun p => { p with left := true }) s.intake.records } }
  else s

/-- The candidate page is entered (R36 2, 3). -/
def enterPage (s : State) : State :=
  { s with intake := { s.intake with
      records := s.intake.records ++
        [{ serial := s.intake.nextSerial, address := s.intake.candidate, takenCount := 0, finishedCount := 0, left := false }]
      nextSerial := s.intake.nextSerial + 1
      currentPage := s.intake.candidate
      pageEntered := true
      nextSlot := 0 } }

/-- A FIRST_SEQ read completes with F (R36). -/
def firstSeqDone (f : Word) (s : State) : State :=
  if f = s.intake.expected then poolCheck (enterPage (leavePage s))
  else breakIntake .pageMismatch (if s.intake.pageEntered then .next else .header) s

/-- FIRST_SEQ_READ_COMPLETE (R36). -/
def execFirstSeqReadComplete (tag : Nat) (firstSeq : Word) (s : State) : Outcome :=
  .next (readComplete tag .header (firstSeqDone firstSeq) s)

/-! ## The take (R38, R39, R62) -/

/-- The slot of a taken order (R48). That it holds no OUTCOME and REASON 0 until the order enters REPORTING, R48 giving neither a value at the take, is the model's choice, log 35. -/
def takenOrder (e : EntryWords) (s : State) : PoolOrder where
  entry := e
  pageSerial := (s.intake.records.getLast?.map (·.serial)).getD 0
  pageAddress := s.intake.currentPage
  entrySlot := s.intake.nextSlot
  life := .queued
  cancelMark := s.pool.cancelList.contains s.intake.expected
  stopCause := none
  outcome := none
  reason := 0
  corrected := 0
  done := 0

/-- The pool at a take (R39 1 to 3, 6, R52, R62). -/
def takePool (e : EntryWords) (i : SlotId) (s : State) : Pool :=
  let p : Pool :=
    { s.pool with
      slots := s.pool.slots.set i (some (takenOrder e s))
      taken := s.pool.taken + 1
      cancelList := s.pool.cancelList.erase s.intake.expected
      queues := s.pool.queues.set e.lane (s.pool.queues[e.lane] ++ [i]) }
  { p with oldestOpen := computeOldest p }

/-- The intake at a take (R39 3 to 5). -/
def takeIntake (i : Intake) : Intake :=
  { i with expected := i.expected + 1, nextSlot := i.nextSlot + 1,
           records := updateYoungest (fun p => { p with takenCount := p.takenCount + 1 }) i.records }

/-- The take, with the promotion it may bring (R39, R54) and the intake's next step (R32, R40). -/
def takeOrder (e : EntryWords) (s : State) : State :=
  match freeSlot s with
  | some i => afterTake (promote e.lane { s with pool := takePool e i s, intake := takeIntake s.intake })
  | none => s

/-- Both checks of R38. -/
def entryMatches (e : EntryWords) (s : State) : Bool := e.estate == estatePosted && e.seq == s.intake.expected

/-- An entry read completes (R38). -/
def entryDone (e : EntryWords) (s : State) : State :=
  if entryMatches e s then takeOrder e s else breakIntake .entryMismatch .entry s

/-- ENTRY_READ_COMPLETE (R38). -/
def execEntryReadComplete (tag : Nat) (entry : EntryWords) (s : State) : Outcome :=
  .next (readComplete tag .entry (entryDone entry) s)

/-- INTAKE_READ_FAIL (R44). -/
def execIntakeReadFail (tag : Nat) (s : State) : Outcome := .next (failResponse tag Request.isStep s)

/-! ## Stalls (R42, R43) -/

/-- A STALLED_POOL wait ends when a slot is free (R42). -/
def stalledPoolTest (s : State) : State :=
  if s.intake.state = .stalledPool ∧ (freeSlot s).isSome then queueRead .entry s else s

/-- A STALLED_PAGES wait ends when a page record has been removed (R43). -/
def stalledPagesTest (s : State) : State :=
  if s.intake.state = .stalledPages ∧ s.intake.records.length < Config.maxRecords then goToPage s else s

/-- STALLED_POOL_END (R42). -/
def execStalledPoolEnd (s : State) : Outcome := .next (issueAccess (stalledPoolTest s))

/-- STALLED_PAGES_END (R43). -/
def execStalledPagesEnd (s : State) : Outcome := .next (issueAccess (stalledPagesTest s))

end Sys2Proof.Machine
end

