-- ==== Sys2Proof/Machine/ReportCmds.lean ====
section
/-! DEFINITION. Meanings of the reporting logic's events (chapter 1, R12 to R21). -/

namespace Sys2Proof.Machine

/-- The slot of a result write. -/
def Request.resultSlot : Request → Option SlotId
  | .result i => some i
  | .estate _ | .headerUpdate | .release | .startRead | .intakeRead _ | .hostRead _ | .hostWrite _ => none

/-- The slot of an ESTATE write. -/
def Request.estateSlot : Request → Option SlotId
  | .estate i => some i
  | .result _ | .headerUpdate | .release | .startRead | .intakeRead _ | .hostRead _ | .hostWrite _ => none

/-- A result write completes: the order's ESTATE write joins the queue (R12). -/
def resultDone (a : Access) (s : State) : State :=
  match a.request.resultSlot with
  | some i => placeRequest (.estate i) s
  | none => s

/-- RESULT_WRITE_COMPLETE (R12). -/
def execResultWriteComplete (tag : Nat) (s : State) : Outcome :=
  .next (onResponse tag (fun r => r.resultSlot.isSome) resultDone s)

/-! ## The ESTATE completion (R14, R57) -/

/-- The pool when an order leaves it (R14 1 to 3). -/
def finishPool (i : SlotId) (p : Pool) : Pool :=
  let q : Pool := { p with slots := p.slots.set i none, finished := p.finished + 1 }
  { q with oldestOpen := computeOldest q }

/-- The page records when an order of page `serial` has finished (R14 4). -/
def countFinished (serial : Nat) (records : List PageRecord) : List PageRecord :=
  records.map fun p => if p.serial = serial then { p with finishedCount := p.finishedCount + 1 } else p

/-- Steps 1 to 5 of R14. -/
def leavePool (i : SlotId) (o : PoolOrder) (s : State) : State :=
  { s with
    pool := finishPool i s.pool
    intake := { s.intake with records := countFinished o.pageSerial s.intake.records }
    reporting := { s.reporting with notifyOwed := s.reporting.notifyOwed || o.entry.notify } }

/-- The ESTATE write of the order in slot `i` completes (R14, R57). The promoted head makes its start test here, before the entries already WAITING make theirs (`tableEvent`): the model's choice, log 33. The release test of R14 comes before the MARK tests of R57, so a release write joins the queue before a MARK's result write; the two rules do not order them, and this is the model's choice, log 34. -/
def finishOrder (i : SlotId) (o : PoolOrder) (s : State) : State :=
  stalledPoolTest (markTests (releaseTest (promote o.entry.lane (setEntry o.entry.lane none
    (requestHeaderUpdate (leavePool i o s))))))

def estateDone (a : Access) (s : State) : State :=
  match a.request.estateSlot with
  | none => s
  | some i =>
    match slotOrder s i with
    | some o => drainedTest (finishOrder i o s)
    | none => s

/-- ESTATE_WRITE_COMPLETE (R14). -/
def execEstateWriteComplete (tag : Nat) (s : State) : Outcome :=
  .next (onResponse tag (fun r => r.estateSlot.isSome) estateDone s)

/-! ## Header updates and releases -/

/-- A header update completes: NOTIFY pending is set if it carries notify (R17, R18 3). -/
def headerDone (a : Access) (s : State) : State := drainedTest (if a.carriesNotify then setNotify s else s)

/-- HEADER_UPDATE_COMPLETE (R17). -/
def execHeaderUpdateComplete (tag : Nat) (s : State) : Outcome :=
  .next (onResponse tag (fun r => r == .headerUpdate) headerDone s)

/-- RELEASE_REQUEST (R19). -/
def execReleaseRequest (s : State) : Outcome := .next (issueAccess (releaseTest s))

/-- Steps 1 to 3 of R20. -/
def dropOldest (s : State) : State :=
  { s with
    intake := { s.intake with records := s.intake.records.tail }
    reporting := { s.reporting with releaseInProgress := false, released := s.reporting.released + 1 } }

/-- A release write completes (R20). -/
def releaseDone (s : State) : State :=
  drainedTest (stalledPagesTest (releaseTest (requestHeaderUpdate (dropOldest s))))

/-- RELEASE_WRITE_COMPLETE (R20). -/
def execReleaseWriteComplete (tag : Nat) (s : State) : Outcome :=
  .next (onResponse tag (fun r => r == .release) (fun _ => releaseDone) s)

end Sys2Proof.Machine
end

