-- ==== Sys2Proof/Machine/TableCmds.lean ====
section
/-! DEFINITION. Meanings of the Active Order Table's events (R54, R58, R80, R85). -/

namespace Sys2Proof.Machine

/-- PROMOTION (R54). -/
def execPromotion (lane : Lane) (s : State) : Outcome := .next (tableEvent (promote lane) s)

/-- START_TEST (R80). -/
def execStartTest (lane : Lane) (s : State) : Outcome := .next (tableEvent (runStartTest lane) s)

/-- MARK_FINISH (R58). -/
def execMarkFinish (lane : Lane) (s : State) : Outcome := .next (tableEvent (markTest lane) s)

/-- STOPPING_END (R85). -/
def execStoppingEnd (lane : Lane) (s : State) : Outcome := .next (tableEvent (endTest lane) s)

end Sys2Proof.Machine
end

