-- ==== Sys2Proof/Machine/StrokeCmds.lean ====
section
/-! DEFINITION. Meanings of the Stroke Engine's events (R93 to R102). -/

namespace Sys2Proof.Machine

/-- BUFFER_GRANT (R98). -/
def execBufferGrant (s : State) : Outcome := .next (tableEvent grants s)

/-- One issue of a lane's generator: at once for FILL and arming, with a granted buffer when the allocator's turn is this lane's (R93, R95, R98, log 22). -/
def issueOne (l : Lane) (s : State) : State :=
  if issuesAlone s l then issueStroke l none s
  else
    match freeBuffer s with
    | some b => if nextWanter s = some l then grantBuffer l b s else s
    | none => s

/-- STROKE_ISSUE (R95). -/
def execStrokeIssue (lane : Lane) (s : State) : Outcome := .next (tableEvent (issueOne lane) s)

/-! ## DATA accesses of strokes (R101, R102, R106) -/

def Request.readStroke : Request → Option StrokeId
  | .hostRead i => some i
  | .hostWrite _ | .result _ | .estate _ | .headerUpdate | .release | .startRead | .intakeRead _ => none

def Request.writeStroke : Request → Option StrokeId
  | .hostWrite i => some i
  | .hostRead _ | .result _ | .estate _ | .headerUpdate | .release | .startRead | .intakeRead _ => none

/-- Place 64 bytes in a stroke's buffer. -/
def fillBuffer (r : StrokeRecord) (data : Line) (s : State) : State :=
  match r.buffer with
  | some b => { s with strokes := { s.strokes with buffers := s.strokes.buffers.set b (some { holder := r.id, data := some data }) } }
  | none => s

/-- Change an in-flight stroke record. -/
def updateStroke (i : StrokeId) (f : StrokeRecord → StrokeRecord) (s : State) : State :=
  { s with strokes := { s.strokes with records := s.strokes.records.map fun x => if x.id == i then f x else x } }

/-- A stroke's second bank request; at an UNPOWERED bank it is discarded and the stroke fails (R126). -/
def placeWrite (r : StrokeRecord) (a : Nat) (data : Line) (s : State) : State :=
  if bankUnpowered s (addrBank a) then strokeFailed r .regionDropped s
  else joinBank (addrBank a) (bankRequestAt r a (.write data)) s

/-- A LOAD's host read completes (R101 1). -/
def hostReadDone (data : Line) (a : Access) (s : State) : State :=
  match a.request.readStroke.bind (findStroke s) with
  | some r => placeWrite r r.place data (updateStroke r.id (fun x => { x with phase := .arrayWriting }) (fillBuffer r data s))
  | none => s

/-- LOAD_HOST_READ_COMPLETE (R101). -/
def execLoadHostReadComplete (tag : Nat) (data : Line) (s : State) : Outcome :=
  .next (onResponse tag (fun r => r.readStroke.isSome) (hostReadDone data) s)

/-- A FETCH's host write completes: the stroke completes (R102 2). -/
def hostWriteDone (a : Access) (s : State) : State :=
  match a.request.writeStroke.bind (findStroke s) with
  | some r => strokeDone r s
  | none => s

/-- FETCH_HOST_WRITE_COMPLETE (R102). -/
def execFetchHostWriteComplete (tag : Nat) (s : State) : Outcome :=
  .next (onResponse tag (fun r => r.writeStroke.isSome) hostWriteDone s)

end Sys2Proof.Machine
end

