-- ==== Sys2Proof/Machine/BankCmds.lean ====
section
/-! DEFINITION. Meanings of the Bank Controllers' and the Refresh Unit's events (chapters 6 and 7). -/

namespace Sys2Proof.Machine

/-- BANK_ARBITER_DECISION (R118). -/
def execBankArbiterDecision (bank : BankId) (s : State) : Outcome := .next (bankDecide bank s)

/-- An open completes (R115). -/
def openDone (b : BankId) (s : State) : State := closeOrDecide b (setBank b { s.banks[b] with state := .opened } s)

/-- BANK_OPEN_COMPLETE (R115). -/
def execBankOpenComplete (bank : BankId) (s : State) : Outcome :=
  .next (if s.banks[bank].state = .opening then openDone bank s else s)

/-! ## Access (R100, R107, R124) -/

def requestAddress (b : BankId) (q : BankRequest) : Nat := placeAddress b q.row q.column

/-- The classification of the stroke that a request reads. -/
def requestClass (b : BankId) (q : BankRequest) (fresh : LineDisturbance) (m : ArrayCells) : Classification :=
  classify (foundWords m (requestAddress b q) fresh)

/-- The array after an access (R100, R104, R107): a WRITE stores its bytes with new check codes, a CORRECTED SCRUB stores them back, a read leaves the cells as it finds them. -/
def accessCells (b : BankId) (q : BankRequest) (fresh : LineDisturbance) (m : ArrayCells) : ArrayCells :=
  let a := requestAddress b q
  match q.kind with
  | .write data => writeLine m a data
  | .read => setDisturbed m a (foundWords m a fresh)
  | .scrub =>
    match requestClass b q fresh m with
    | .corrected _ => setDisturbed m a fun _ => .clean
    | .clean | .uncorrectable => setDisturbed m a (foundWords m a fresh)

/-- A READ that delivers its data moves a FETCH to its host write and a COPY to its destination write (R102, R103). -/
def readDelivered (r : StrokeRecord) (n : Nat) (data : Line) (s : State) : State :=
  let s := fillBuffer r data s
  if r.kind = .copy then
    placeWrite { r with corrected := n } r.destPlace data
      (updateStroke r.id (fun x => { x with phase := .arrayWriting, corrected := n }) s)
  else placeRequest (.hostWrite r.id) (updateStroke r.id (fun x => { x with phase := .hostWriting, corrected := n }) s)

/-- The corrected words of a classification (R108). -/
def Classification.words : Classification → Nat
  | .corrected n => n
  | .clean | .uncorrectable => 0

/-- The result of an access is handed to the stroke that placed it (R124 2, R101 to R105). -/
def handResult (q : BankRequest) (c : Classification) (data : Line) (s : State) : State :=
  match q.stroke.bind (findStroke s) with
  | none => s
  | some r =>
    match q.kind, c with
    | .write _, _ => strokeDone r s
    | .read, .uncorrectable => strokeFailed r .dataError s
    | .read, c => readDelivered r c.words data s
    | .scrub, .uncorrectable => strokeFailed r .dataError s
    | .scrub, c => strokeDone { r with corrected := c.words } s

/-- An access completes (R124). -/
def accessDone (b : BankId) (q : BankRequest) (fresh : LineDisturbance) (s : State) : State :=
  let c := requestClass b q fresh s.array
  let data := readLine s.array (requestAddress b q)
  let s := setBank b { s.banks[b] with state := .opened, inHand := none } { s with array := accessCells b q fresh s.array }
  closeOrDecide b (handResult q c data s)

/-- BANK_ACCESS_COMPLETE (R124). -/
def execBankAccessComplete (bank : BankId) (disturbed : LineDisturbance) (s : State) : Outcome :=
  .next (match s.banks[bank].state, s.banks[bank].inHand with
    | .accessing, some q => tableEvent (accessDone bank q disturbed) s
    | _, _ => s)

/-! ## Close and refresh -/

/-- A close completes (R115). -/
def closeDone (b : BankId) (s : State) : State :=
  restOrDecide b (setBank b { s.banks[b] with state := .idle, openRow := none } s)

/-- BANK_CLOSE_COMPLETE (R115). -/
def execBankCloseComplete (bank : BankId) (s : State) : Outcome :=
  .next (if s.banks[bank].state = .closing then tableEvent (closeDone bank) s else s)

/-- The account at a refresh completion (R137). -/
def accountRefreshed (r : RefreshBank) : RefreshBank :=
  if r.void then { r with void := false }
  else if 0 < r.k ∧ Config.accountFloor < r.account then { r with account := r.account - 1 }
  else r

/-- A refresh completes: the report moves the account, then the bank decides (R123). Its row group stays as the last of the turn, and no cell changes (R115, log 31). -/
def refreshDone (b : BankId) (s : State) : State :=
  restOrDecide b (setRefresh b (accountRefreshed s.refresh.banks[b]) (setBank b { s.banks[b] with state := .idle } s))

/-- REFRESH_COMPLETE (R137). -/
def execRefreshComplete (bank : BankId) (s : State) : Outcome :=
  .next (if s.banks[bank].state = .refreshing then tableEvent (refreshDone bank) s else s)

/-! ## Ticks and breaches (R136, R140, R159) -/

/-- A tick below the ceiling: the account rises and the next interval begins (R135, R136). -/
def raiseAccount (c : TempClass) (r : RefreshBank) : RefreshBank :=
  startInterval c { r with account := r.account + 1 }

def tickRaise (b : BankId) (s : State) : State :=
  let before := indication s b
  indicationChanged before b (setRefresh b (raiseAccount s.refresh.tempClass s.refresh.banks[b]) s)

/-- The bank's regions in KEPT or ARMING become LOST (R159). -/
def loseRegions (b : BankId) (s : State) : State :=
  mapRegions (fun r x => if regionBank r == b && x.state.retained then Region.become .lost else x) s

/-- The arming owners of the regions of a bank. -/
def armingOwners (s : State) (b : BankId) : List OrderName :=
  allSegments.filterMap fun g =>
    if regionState s (regionOf b g) = .arming then s.regions[regionOf b g].owner else none

/-- An arming owner that a breach reaches takes the stop cause REGION_LOST (R159, R84). -/
def stopOwner (s : State) (n : OrderName) : State := if laneHolds s n then toStopping n.lane (some .regionLost) s else s

def countBreach (s : State) : State := setAlert { s with refresh := { s.refresh with breaches := s.refresh.breaches + 1 } }

/-- A breach (R140, R159). -/
def breach (b : BankId) (s : State) : State :=
  (armingOwners s b).foldl stopOwner (requestHeaderUpdate (countBreach (handK b (loseRegions b s))))

/-- A tick (R136). -/
def tickBank (b : BankId) (s : State) : State :=
  if s.refresh.banks[b].account < Config.accountCeiling then tickRaise b s else breach b s

/-- The interval that expires is the one the bank's tick timer runs: a stop or restart taken first has discarded any other (R139). -/
def tickRuns (due : TickDue) (s : State) : Bool :=
  s.refresh.banks[due.bank].timer.isSome && s.refresh.banks[due.bank].interval == due.interval

/-- TICK (R136): taken while the bank's tick timer runs this interval. -/
def execTick (due : TickDue) (s : State) : Outcome :=
  .next (if tickRuns due s then tableEvent (tickBank due.bank) s else s)

/-! ## The temperature class (R145, R147) -/

def alertIfHot (c : TempClass) (s : State) : State := if c = .hot then setAlert s else s

/-- A change of temperature class (R147). -/
def changeClass (c : TempClass) (s : State) : State :=
  alertIfHot c (requestHeaderUpdate { s with refresh := { s.refresh with tempClass := c } })

/-- SAMPLE_TIMER_EXPIRY (R145). -/
def execSampleTimerExpiry (reported : TempClass) (s : State) : Outcome :=
  .next (if s.refresh.sampleTimer && reported != s.refresh.tempClass then issueAccess (changeClass reported s) else s)

end Sys2Proof.Machine
end

