-- ==== Sys2Proof/Machine/DomainCmds.lean ====
section
/-! DEFINITION. Meanings of the Domain Controller's and the Array Mode logic's events (chapter 9). -/

namespace Sys2Proof.Machine

/-- SWITCH_TAKE (R168). -/
def execSwitchTake (s : State) : Outcome := .next (tableEvent switchTakes s)

/-- The ramp timer expires in a phase: `f` acts on the served request. -/
def onRamp (phase : SwitchPhase) (f : Served → State → State) (s : State) : State :=
  match s.domains.serving with
  | some v => if v.phase = phase ∧ s.domains.rampTimer.isSome then tableEvent (f v) s else s
  | none => s

/-- RAMP_UP_COMPLETE (R169 2). -/
def execRampUpComplete (s : State) : Outcome := .next (onRamp .rising finishRampUp s)

/-- DRAIN_START (R170 2). -/
def execDrainStart (s : State) : Outcome := .next (tableEvent drainTest s)

/-- RAMP_DOWN_COMPLETE (R170 3). -/
def execRampDownComplete (s : State) : Outcome := .next (onRamp .falling finishRampDown s)

/-- IDLE_TIMER_EXPIRY (R174). -/
def execIdleTimerExpiry (s : State) : Outcome :=
  .next (if s.arrayMode.mode = .run ∧ s.arrayMode.idleTimer.isSome then tableEvent startSleepEntry s else s)

/-- SLEEP_ENTRY_COMPLETE (R175). -/
def execSleepEntryComplete (s : State) : Outcome := .next (tableEvent sleepEntryTest s)

/-- WAKE_TIMER_EXPIRY (R176): the wake completes, then every waiting entry is tested (R78). -/
def execWakeTimerExpiry (s : State) : Outcome :=
  .next (if s.arrayMode.mode = .waking ∧ s.arrayMode.wakeTimer.isSome then
      tableEvent (fun t => startTests (finishWake t)) s
    else s)

end Sys2Proof.Machine
end

