-- ==== Sys2Proof/Machine/Dispatch.lean ====
section
/-! DEFINITION. The meaning of each command, one arm per row of spec/opcode_table.json. -/

namespace Sys2Proof.Machine

def exec (i : Instr) (s : State) : Host.Outcome State Fault Refusal :=
    match i with
    | .powerOnReset => Sys2Proof.Machine.execPowerOnReset s
    | .pinReset => Sys2Proof.Machine.execPinReset s
    | .resetNRelease => Sys2Proof.Machine.execResetNRelease s
    | .engineReset v => Sys2Proof.Machine.execEngineReset v s
    | .engineEnable v => Sys2Proof.Machine.execEngineEnable v s
    | .engineDisable v => Sys2Proof.Machine.execEngineDisable v s
    | .pollSet v => Sys2Proof.Machine.execPollSet v s
    | .idleSleepSet v => Sys2Proof.Machine.execIdleSleepSet v s
    | .responseSet v => Sys2Proof.Machine.execResponseSet v s
    | .exbaseWrite v => Sys2Proof.Machine.execExbaseWrite v s
    | .nudge v => Sys2Proof.Machine.execNudge v s
    | .cancel q => Sys2Proof.Machine.execCancel q s
    | .eventsWrite v => Sys2Proof.Machine.execEventsWrite v s
    | .registerWriteOther offset size v => Sys2Proof.Machine.execRegisterWriteOther offset size v s
    | .pollTimerExpiry => Sys2Proof.Machine.execPollTimerExpiry s
    | .accessIssue => Sys2Proof.Machine.execAccessIssue s
    | .responseLimitExpiry => Sys2Proof.Machine.execResponseLimitExpiry s
    | .staleResponseDiscard tag => Sys2Proof.Machine.execStaleResponseDiscard tag s
    | .startReadComplete tag posted firstPage => Sys2Proof.Machine.execStartReadComplete tag posted firstPage s
    | .startReadFail tag => Sys2Proof.Machine.execStartReadFail tag s
    | .tallyReadComplete tag posted => Sys2Proof.Machine.execTallyReadComplete tag posted s
    | .nextReadComplete tag next => Sys2Proof.Machine.execNextReadComplete tag next s
    | .firstSeqReadComplete tag firstSeq => Sys2Proof.Machine.execFirstSeqReadComplete tag firstSeq s
    | .entryReadComplete tag entry => Sys2Proof.Machine.execEntryReadComplete tag entry s
    | .intakeReadFail tag => Sys2Proof.Machine.execIntakeReadFail tag s
    | .stalledPoolEnd => Sys2Proof.Machine.execStalledPoolEnd s
    | .stalledPagesEnd => Sys2Proof.Machine.execStalledPagesEnd s
    | .resultWriteComplete tag => Sys2Proof.Machine.execResultWriteComplete tag s
    | .estateWriteComplete tag => Sys2Proof.Machine.execEstateWriteComplete tag s
    | .headerUpdateComplete tag => Sys2Proof.Machine.execHeaderUpdateComplete tag s
    | .releaseRequest => Sys2Proof.Machine.execReleaseRequest s
    | .releaseWriteComplete tag => Sys2Proof.Machine.execReleaseWriteComplete tag s
    | .reportAccessFail tag => Sys2Proof.Machine.execReportAccessFail tag s
    | .dataAccessFail tag => Sys2Proof.Machine.execDataAccessFail tag s
    | .engineDrained => Sys2Proof.Machine.execEngineDrained s
    | .promotion lane => Sys2Proof.Machine.execPromotion lane s
    | .startTest lane => Sys2Proof.Machine.execStartTest lane s
    | .markFinish lane => Sys2Proof.Machine.execMarkFinish lane s
    | .stoppingEnd lane => Sys2Proof.Machine.execStoppingEnd lane s
    | .bufferGrant => Sys2Proof.Machine.execBufferGrant s
    | .strokeIssue lane => Sys2Proof.Machine.execStrokeIssue lane s
    | .loadHostReadComplete tag data => Sys2Proof.Machine.execLoadHostReadComplete tag data s
    | .fetchHostWriteComplete tag => Sys2Proof.Machine.execFetchHostWriteComplete tag s
    | .bankArbiterDecision bank => Sys2Proof.Machine.execBankArbiterDecision bank s
    | .bankOpenComplete bank => Sys2Proof.Machine.execBankOpenComplete bank s
    | .bankAccessComplete bank disturbed => Sys2Proof.Machine.execBankAccessComplete bank disturbed s
    | .bankCloseComplete bank => Sys2Proof.Machine.execBankCloseComplete bank s
    | .refreshComplete bank => Sys2Proof.Machine.execRefreshComplete bank s
    | .tick due => Sys2Proof.Machine.execTick due s
    | .sampleTimerExpiry reported => Sys2Proof.Machine.execSampleTimerExpiry reported s
    | .switchTake => Sys2Proof.Machine.execSwitchTake s
    | .rampUpComplete => Sys2Proof.Machine.execRampUpComplete s
    | .drainStart => Sys2Proof.Machine.execDrainStart s
    | .rampDownComplete => Sys2Proof.Machine.execRampDownComplete s
    | .idleTimerExpiry => Sys2Proof.Machine.execIdleTimerExpiry s
    | .sleepEntryComplete => Sys2Proof.Machine.execSleepEntryComplete s
    | .wakeTimerExpiry => Sys2Proof.Machine.execWakeTimerExpiry s

end Sys2Proof.Machine
end

