-- ==== Sys2Proof/Machine/Flags.lean ====
section
/-! DEFINITION. The register window as reads see it: register images, STATUS, EVENTS, INT_N and narrow reads (R180, R181, R183, R184). -/

namespace Sys2Proof.Machine

def bit (b : Bool) (n : Nat) : Nat := if b then 2 ^ n else 0

def EngineState.code : EngineState → Nat
  | .disabled => 0
  | .starting => 1
  | .running => 2
  | .draining => 3
  | .halted => 4

def HaltReason.code : HaltReason → Nat
  | .noReason => 0
  | .start => 1
  | .reportBus => 2

def CancelStatus.code : CancelStatus → Nat
  | .noWrite => 0
  | .accepted => 1
  | .applied => 2
  | .missed => 3
  | .refusedFull => 4
  | .refusedState => 5

/-- Fault reasons (R24). -/
def IntakeFault.code : IntakeFault → Nat
  | .noFault => 0
  | .tally => 1
  | .noNext => 2
  | .pageMismatch => 3
  | .entryMismatch => 4
  | .bus => 5

/-- CONTROL as read: ENGINE_RESET reads 0 (R181). -/
def controlWord (p : PortRegs) : Word :=
  BitVec.ofNat 32 (bit p.enable 0 + p.poll.toNat * 16 + p.idleSleep.toNat * 256 + p.response.toNat * 4096)

/-- STATUS as read (R181, R183). -/
def statusWord (s : State) : Word :=
  BitVec.ofNat 32
    (EngineState.code s.engine.state + IntakeState.code s.intake.state * 16 + IntakeFault.code s.intake.faultReason * 256
      + HaltReason.code s.engine.haltReason * 4096 + ArrayMode.code s.arrayMode.mode * 65536
      + tempClassCode s.refresh.tempClass * 262144 + occupied s * 1048576 + s.intake.records.length * 33554432)

/-- EVENTS as read (R181). -/
def eventsWord (p : PortRegs) : Word :=
  BitVec.ofNat 32
    (bit p.notifyPending 0 + bit p.alertPending 1 + bit p.faultPending 2 + bit p.drainedPending 3
      + bit p.notifyEnable 8 + bit p.alertEnable 9 + bit p.faultEnable 10 + bit p.drainedEnable 11)

/-- A register's word at an aligned offset, by its word number in the window (R181); 0x18 and 0x1C read 0. -/
def heldWord (s : State) (n : Nat) : Word :=
  match n with
  | 0 => controlWord s.port
  | 1 => exbaseAddress s
  | 2 => 0
  | 3 => BitVec.ofNat 32 (CancelStatus.code s.port.cancelStatus)
  | 4 => statusWord s
  | 5 => eventsWord s.port
  | _ => 0

/-- The reset values that reads return while RESET_N is held after a pin reset (R180, R181). -/
def resetWord (n : Nat) : Word := if n = 0 then 0x3220#32 else 0

def windowWord (s : State) (n : Nat) : Word := if s.port.resetHeld then resetWord n else heldWord s n

/-- A byte of the 32-byte window; little-endian words. -/
def windowByte (s : State) (i : Nat) : Byte := (windowWord s (i / 4)).extractLsb' (8 * (i % 4)) 8

/-- A read of the register window (R180): a 32-bit read at an unaligned offset returns 0, a narrower read the addressed bytes (log 17). -/
def readRegister (s : State) (offset : BitVec 5) (size : AccessSize) : Word :=
  match size with
  | .word => if offset.toNat % 4 = 0 then windowWord s (offset.toNat / 4) else 0
  | .half => (windowByte s offset.toNat).setWidth 32 ||| ((windowByte s (offset.toNat + 1)).setWidth 32 <<< 8)
  | .byte => (windowByte s offset.toNat).setWidth 32

/-- INT_N is asserted (driven low) while a pending bit has its enable bit set (R184). -/
def intAsserted (s : State) : Bool :=
  (s.port.notifyPending && s.port.notifyEnable) || (s.port.alertPending && s.port.alertEnable)
    || (s.port.faultPending && s.port.faultEnable) || (s.port.drainedPending && s.port.drainedEnable)

end Sys2Proof.Machine
end

