-- ==== Sys2Proof/Safety.lean ====
section
/-! DEFINITION. The words the statements use: what a response awaits, what is left unchanged, and the invariants of the part. -/

namespace Sys2Proof.Safety

open Sys2Proof.Machine

/-! ## The channel -/

/-- The access outstanding carries this tag and this request (R187). -/
def Awaits (s : State) (tag : Nat) (r : Request) : Prop :=
  ∃ a, s.channel.outstanding = some a ∧ a.tag = tag ∧ a.request = r

/-- `s` once its outstanding access has ended. -/
def freed (s : State) : State := { s with channel := { s.channel with outstanding := none } }

/-- A request is queued or outstanding (R185). -/
def Requested (s : State) (r : Request) : Prop :=
  r ∈ s.channel.queue ∨ ∃ a, s.channel.outstanding = some a ∧ a.request = r

/-! ## What a command leaves unchanged -/

/-- The pool, the table and the Stroke Engine are as before. -/
def SameOrders (s t : State) : Prop := t.pool = s.pool ∧ t.table = s.table ∧ t.strokes = s.strokes

/-- The banks, the Refresh Unit, the regions, the domains and every byte and check code of the array are as before. -/
def SameArraySide (s t : State) : Prop :=
  t.banks = s.banks ∧ t.refresh = s.refresh ∧ t.regions = s.regions ∧ t.domains = s.domains ∧ t.array = s.array

/-- The registers of the System Port and the engine are as before. -/
def SamePort (s t : State) : Prop := t.port = s.port ∧ t.engine = s.engine

/-- Nothing but the channel, the reporting logic and the intake may differ. -/
def OnlyExchange (s t : State) : Prop := SamePort s t ∧ SameOrders s t ∧ SameArraySide s t ∧ t.arrayMode = s.arrayMode

/-! ## The event of a command -/

/-- What follows a command's own effect `u` at the event that began in `s`: the start tests if a table entry moved (R78), the idle timer (R174) and the master channel's arbiter (R186), in this order (logs 6 and 33). -/
def settle (s u : State) : State := issueAccess (idleFollow (retestIfMoved s u))

/-- A header update waits, unless the engine is DISABLED, STARTING or HALTED (R16). -/
def HeaderAsked (u : State) : Prop := engineLive u = true → u.reporting.headerPending = true

/-! ## The intake -/

/-- READING, with the read of this step in the request queue (R23). -/
def Reads (step : ReadStep) (u : State) : Prop :=
  u.intake.state = .reading ∧ u.intake.readStep = some step ∧ u.intake.pollTimer = none ∧ .intakeRead step ∈ u.channel.queue

/-- WATCH, with the poll timer started by the code in CONTROL (R28) and a header update asked for (R24). -/
def Watches (u : State) : Prop :=
  u.intake.state = .watch ∧ u.intake.readStep = none ∧ u.intake.pollTimer = pollIntervalUs u.port.poll ∧ HeaderAsked u

/-- A stall with no read queued, and a header update asked for (R24, R34, R37). -/
def Stalls (st : IntakeState) (u : State) : Prop :=
  u.intake.state = st ∧ u.intake.readStep = none ∧ u.intake.pollTimer = none ∧ HeaderAsked u

/-- BROKEN, as R45 lists it. -/
def Breaks (reason : IntakeFault) (step : ReadStep) (u : State) : Prop :=
  u.intake.state = .broken ∧ u.intake.faultReason = reason ∧ u.intake.failedStep = some step ∧ u.intake.pollTimer = none
    ∧ u.port.faultPending = true ∧ HeaderAsked u

/-- OFF, as R26 leaves it. -/
def Off (u : State) : Prop :=
  u.intake.state = .off ∧ u.intake.readStep = none ∧ u.intake.pollTimer = none ∧ u.intake.nudgePending = false

/-- The pool check (R37). -/
def ChecksPool (s u : State) : Prop :=
  ((∃ i, slotOrder s i = none) → Reads .entry u) ∧ ((∀ i, slotOrder s i ≠ none) → Stalls .stalledPool u)

/-- The take of the next order begins (R33, R34). -/
def BeginsTake (s u : State) : Prop :=
  (s.intake.pageEntered = true ∧ s.intake.nextSlot ≠ 15 → ChecksPool s u)
    ∧ (s.intake.pageEntered = false ∨ s.intake.nextSlot = 15 →
        (4 ≤ s.intake.records.length → Stalls .stalledPages u)
          ∧ (s.intake.records.length < 4 → s.intake.pageEntered = true → Reads .next u)
          ∧ (s.intake.records.length < 4 → s.intake.pageEntered = false → Reads .header u ∧ u.intake.candidate = s.intake.currentPage))

/-- The walk position, the expected sequence and the page records are kept. -/
def SameWalk (s u : State) : Prop :=
  u.intake.expected = s.intake.expected ∧ u.intake.currentPage = s.intake.currentPage
    ∧ u.intake.pageEntered = s.intake.pageEntered ∧ u.intake.nextSlot = s.intake.nextSlot ∧ u.intake.records = s.intake.records

/-- What no intake event changes: the engine, the orders, the array side, every register but FAULT pending; no queued request is lost. -/
def IntakeOnly (s u : State) : Prop :=
  u.engine = s.engine ∧ SameOrders s u ∧ SameArraySide s u ∧ u.arrayMode = s.arrayMode ∧ u.pending = s.pending
    ∧ u.port = { s.port with faultPending := u.port.faultPending } ∧ (∀ r ∈ s.channel.queue, r ∈ u.channel.queue)
    ∧ u.reporting.notifyOwed = s.reporting.notifyOwed ∧ u.reporting.released = s.reporting.released

/-! ## Orders -/

/-- The order in slot `i` is in the table entry of its lane. -/
def HeldAt (s : State) (l : Lane) (i : SlotId) (o : PoolOrder) : Prop :=
  slotOrder s i = some o ∧ ∃ e, laneEntry s l = some e ∧ e.slot = i

/-- The order in slot `i` is in REPORTING with these values and its result write waits (R86, R12). -/
def Reports (u : State) (i : SlotId) (o : PoolOrder) (outcome : OutcomeCode) (reason corrected done : Nat) : Prop :=
  slotOrder u i = some { o with life := .reporting, outcome := some outcome, reason := reason, corrected := corrected, done := done }
    ∧ .result i ∈ u.channel.queue

/-! ## Invariants -/

/-- Every stored byte and every disturbed word is listed in the one canonical form. -/
def MemoryCanonical (s : State) : Prop := Memory.wf s.array

/-- The header-update-pending flag is set exactly while one header update waits in the queue (R16). -/
def HeaderFlagAgrees (s : State) : Prop :=
  s.channel.queue.count .headerUpdate = if s.reporting.headerPending then 1 else 0

/-- The expected sequence is the internal TAKEN count (R23, R50). -/
def CountsAgree (s : State) : Prop := s.intake.expected = s.pool.taken

/-- How many result and ESTATE writes of the order in slot `i` are queued or outstanding. -/
def reportWrites (s : State) (i : SlotId) : Nat :=
  s.channel.queue.countP (fun r => r == .result i || r == .estate i)
    + (if s.channel.outstanding.any fun a => a.request == .result i || a.request == .estate i then 1 else 0)

/-- Every order is in its one place: QUEUED in its lane's queue, else in its lane's table entry; a reporting write is only for an order in REPORTING, one at a time (R51, R54, R70, R12). -/
def OrdersPlaced (s : State) : Prop :=
  (∀ l e, laneEntry s l = some e → ∃ o, slotOrder s e.slot = some o ∧ o.entry.lane = l ∧ o.life ≠ .queued)
    ∧ (∀ l : Lane, s.pool.queues[l].Nodup ∧ ∀ i ∈ s.pool.queues[l], ∃ o, slotOrder s i = some o ∧ o.entry.lane = l ∧ o.life = .queued)
    ∧ (∀ i o, slotOrder s i = some o → o.life = .queued → i ∈ s.pool.queues[o.entry.lane])
    ∧ (∀ i o, slotOrder s i = some o → o.life ≠ .queued → ∃ e, laneEntry s o.entry.lane = some e ∧ e.slot = i)
    ∧ ∀ i, reportWrites s i ≤ 1 ∧ (reportWrites s i = 1 → ∃ o, slotOrder s i = some o ∧ o.life = .reporting)

/-- At most four strokes of one order are in flight (R93). -/
def FlightCapped (s : State) : Prop := ∀ l : Lane, inFlight s l ≤ 4

/-- A generator belongs to an order RUNNING or STOPPING, and issues only while it is RUNNING (R92, R112). -/
def GeneratorsRun (s : State) : Prop :=
  ∀ (l : Lane) (g : Generator), s.strokes.generators[l] = some g →
    ∃ o, laneOrder s l = some o ∧ (o.life = .running ∨ o.life = .stopping) ∧ (g.issuing = true → o.life = .running)

/-- At most four sequences in the cancel list, none twice (R61). -/
def CancelListLegal (s : State) : Prop := s.pool.cancelList.length ≤ 4 ∧ s.pool.cancelList.Nodup

/-- The poll timer runs only in WATCH, the idle timer only in RUN, the wake timer exactly in WAKING (R28, R173, R174). -/
def TimersLegal (s : State) : Prop :=
  (s.intake.pollTimer.isSome → s.intake.state = .watch) ∧ (s.arrayMode.idleTimer.isSome → s.arrayMode.mode = .run)
    ∧ (s.arrayMode.wakeTimer.isSome ↔ s.arrayMode.mode = .waking)

/-- What R144 says of one bank, with the timer that keeps it so: the account in range, k the count of retained regions, and both account and timer at rest while the bank is UNPOWERED, ASLEEP or retains nothing. -/
def BankRefreshLegal (s : State) (b : BankId) : Prop :=
  -8 ≤ s.refresh.banks[b].account ∧ s.refresh.banks[b].account ≤ 8
    ∧ s.refresh.banks[b].k = retainedCount s b
    ∧ (s.refresh.banks[b].k = 0 ∨ bankAwake s.banks[b] = false →
        s.refresh.banks[b].account = 0 ∧ s.refresh.banks[b].timer = none)

/-- A region is in a state other than OFF only while its domain is ON (R150). -/
def RegionsPowered (s : State) : Prop := ∀ r : RegionId, regionState s r ≠ .off → s.domains.states[regionDomain r] = .on

/-- The switch controller's phase and the served domain's state move together (R166). -/
def PhaseAgrees (s : State) : Prop :=
  ∀ v, s.domains.serving = some v →
    (v.phase = .rising → s.domains.states[v.domain] = .rampingUp) ∧ (v.phase = .falling → s.domains.states[v.domain] = .rampingDown)

/-- Lane `l` has the entry `e` with the order `o`, which is RUNNING or STOPPING. -/
def AtWork (s : State) (l : Lane) (e : TableEntry) (o : PoolOrder) : Prop :=
  laneEntry s l = some e ∧ slotOrder s e.slot = some o ∧ (o.life = .running ∨ o.life = .stopping)

/-- No two orders RUNNING or STOPPING have conflicting footprints (R77), with what this rests on: a footprint present is its order's (R74), and an order at work has one (R78). -/
def InterlockHolds (s : State) : Prop :=
  (∀ l e o f, laneEntry s l = some e → slotOrder s e.slot = some o → e.footprint = some f →
      ∃ k, o.kind = some k ∧ f = footprintOf o.entry k)
    ∧ (∀ l e o, AtWork s l e o → e.footprint ≠ none)
    ∧ ∀ l m d e x y f g, l ≠ m → AtWork s l d x → AtWork s m e y → d.footprint = some f → e.footprint = some g →
        f.conflicts g = false

/-- How many INTAKE requests are queued or outstanding (R185). -/
def intakeRequests (s : State) : Nat :=
  s.channel.queue.countP Request.isIntake + (if intakeOutstanding s then 1 else 0)

/-- At most four page records (R41) and one INTAKE request (R185), with what they rest on: the start read belongs to STARTING (R189), an intake read to READING (R23), the intake leaves OFF only under a RUNNING or DRAINING engine (R26), a draining engine's intake is OFF or awaits the read it abandoned (R26), and a read that can bring a record, or a retry of one, comes with at most three (R34, R46). -/
def IntakeLegal (s : State) : Prop :=
  intakeRequests s ≤ 1
    ∧ (Requested s .startRead → s.engine.state = .starting)
    ∧ (∀ step, Requested s (.intakeRead step) → s.intake.state = .reading)
    ∧ (s.intake.state ≠ .off → engineLive s = true)
    ∧ (s.engine.state = .draining → s.intake.state = .off ∨ (intakeOutstanding s = true ∧ s.intake.readAbandoned = true))
    ∧ s.intake.records.length ≤ 4
    ∧ (Requested s (.intakeRead .next) ∨ Requested s (.intakeRead .header) → s.intake.records.length ≤ 3)
    ∧ (s.intake.state = .broken → s.intake.failedStep = some .next ∨ s.intake.failedStep = some .header →
        s.intake.records.length ≤ 3)

/-- The occupied slots are TAKEN minus FINISHED (R49), and the pool is empty while the engine is DISABLED or STARTING (R191), so that the counts may start anew (R9). -/
def PoolAgrees (s : State) : Prop :=
  BitVec.ofNat 32 (occupied s) = s.pool.taken - s.pool.finished
    ∧ (s.engine.state = .disabled ∨ s.engine.state = .starting → occupied s = 0)

/-- While a domain stands down, each of its banks that has come to rest stood down has reported, and not both have: the drain starts at the second report (R126, R170). -/
def StandDownReported (s : State) : Prop :=
  ∀ v, s.domains.serving = some v → v.phase = .standingDown →
    ¬(v.lowerDown = true ∧ v.upperDown = true)
    ∧ ∀ b : BankId, bankDomain b = v.domain → s.banks[b].standDown = true → s.banks[b].state = .idle ∨ s.banks[b].state = .asleep →
        (if b = lowerBank v.domain then v.lowerDown else v.upperDown) = true

/-- What becomes of a bank's account, k and timer when `n` of its regions stay retained (R134): `r` is their state after. -/
def HandedK (s : State) (b : BankId) (n : Nat) (r : RefreshBank) : Prop :=
  (n = s.refresh.banks[b].k → r = s.refresh.banks[b])
    ∧ (n ≠ s.refresh.banks[b].k → n = 0 →
        r = { s.refresh.banks[b] with
          account := 0, k := 0, timer := none, void := s.refresh.banks[b].void || s.banks[b].state == .refreshing })
    ∧ (n ≠ s.refresh.banks[b].k → n ≠ 0 →
        r = { s.refresh.banks[b] with
          k := n
          timer := if bankAwake s.banks[b] then some { windowMs := windowMs s.refresh.tempClass, groups := 128 * n } else none
          interval := if bankAwake s.banks[b] then s.refresh.banks[b].interval + 1 else s.refresh.banks[b].interval })

/-- The row group, if there is one, lies in a segment of the bank in KEPT or ARMING (R115). -/
def InRetainedSegment (s : State) (b : BankId) (group : Option RowGroup) : Prop :=
  ∀ g, group = some g → s.regions[regionOf b (groupSegment g)].state = .kept ∨ s.regions[regionOf b (groupSegment g)].state = .arming

/-- In ASLEEP and WAKING no bank is awake (R129, R144). -/
def SleepHolds (s : State) : Prop :=
  s.arrayMode.mode = .asleep ∨ s.arrayMode.mode = .waking → ∀ b : BankId, bankAwake s.banks[b] = false

/-- The refresh law of R144 with what it rests on. -/
def RefreshLegal (s : State) : Prop := (∀ b, BankRefreshLegal s b) ∧ RegionsPowered s ∧ PhaseAgrees s ∧ SleepHolds s

end Sys2Proof.Safety
end

