-- ==== Sys2Proof/Certificates/Slice0/Obligations.lean ====
section
/-! DEFINITION. The statements about the PT-418, from the numbered rules of spec/. Where a command's own effect is followed by start tests, the idle timer and the arbiter at the same event, the statement names the effect `u` and answers `settle s u`. -/

section

open Sys2Proof Sys2Proof.Machine Sys2Proof.Safety

/-! ## The queue of commands -/

/-- A step takes the command at the front of the queue; on an empty queue the block idles (log 23). -/
def Obligations.StepRunsTheFrontCommand : Prop :=
  (∀ (c : Instr) (rest : List Instr) (s : State), s.pending = c :: rest → step s = exec c { s with pending := rest })
    ∧ ∀ s : State, s.pending = [] → step s = .next s

/-- Every command answers a next state, and leaves the waiting commands as they are (log 2). -/
def Obligations.EveryCommandAnswersNext : Prop :=
  ∀ (c : Instr) (s : State), ∃ t, exec c s = .next t ∧ t.pending = s.pending

/-! ## Resets -/

/-- POWER_ON_RESET (R194 and the rules it names); record serials count from 0 by log 16, row groups and tick intervals start as logs 31 and 36 say, the array reads 0 by log 12, tags go on by log 11, RESET_N counts as released by log 18. At reset CONTROL reads 0x3220, every other register 0, and INT_N is released (R181). -/
def Obligations.PowerOnResetValues : Prop :=
  (readRegister State.reset 0x00#5 .word = 0x3220#32 ∧ (∀ o : BitVec 5, o ≠ 0 → readRegister State.reset o .word = 0)
    ∧ intAsserted State.reset = false ∧ exec .powerOnReset State.reset = .next State.reset)
  ∧ ∀ s : State, ∃ t, exec .powerOnReset s = .next t
    ∧ t.pending = s.pending
    ∧ t.port = { enable := false, poll := 2, idleSleep := 2, response := 3, exbase := 0, cancelStatus := .noWrite,
                 notifyPending := false, alertPending := false, faultPending := false, drainedPending := false,
                 notifyEnable := false, alertEnable := false, faultEnable := false, drainedEnable := false, resetHeld := false }
    ∧ t.engine = { state := .disabled, haltReason := .noReason }
    ∧ t.channel = { queue := [], outstanding := none, nextTag := s.channel.nextTag }
    ∧ t.reporting = { headerPending := false, notifyOwed := false, releaseInProgress := false, released := 0 }
    ∧ t.intake = { state := .off, readStep := none, expected := 0, target := 0, currentPage := 0, pageEntered := false,
                   nextSlot := 0, candidate := 0, records := [], nudgePending := false, pollTimer := none,
                   faultReason := .noFault, failedStep := none, readAbandoned := false, nextSerial := 0 }
    ∧ (∀ i, slotOrder t i = none) ∧ (∀ l : Lane, t.pool.queues[l] = []) ∧ t.pool.taken = 0 ∧ t.pool.finished = 0
    ∧ t.pool.oldestOpen = 0 ∧ t.pool.cancelList = []
    ∧ (∀ l, laneEntry t l = none)
    ∧ (∀ l : Lane, t.strokes.generators[l] = none) ∧ t.strokes.records = [] ∧ (∀ b : BufferId, t.strokes.buffers[b] = none)
    ∧ t.strokes.lastGranted = 3
    ∧ (∀ b : BankId, t.banks[b] = { state := .unpowered, openRow := none, requests := [], inHand := none, streak := 0,
                                     sleepHold := false, standDown := false, rowGroup := none })
    ∧ (∀ b : BankId, t.refresh.banks[b] = { account := 0, k := 0, timer := none, void := false, interval := 0 })
    ∧ t.refresh.tempClass = .normal ∧ t.refresh.sampleTimer = true ∧ t.refresh.breaches = 0
    ∧ (∀ r : RegionId, t.regions[r] = { state := .off, owner := none, sweep := 0 })
    ∧ (∀ d : DomainId, t.domains.states[d] = .off) ∧ t.domains.requests = [] ∧ t.domains.serving = none
    ∧ t.domains.rampTimer = none
    ∧ t.arrayMode = { mode := .run, idleTimer := some 1000, wakeTimer := none, forcedSleep := false }
    ∧ (∀ a, arrayByte t.array a = 0) ∧ ∀ n, wordDisturbance t.array n = .clean

/-- PIN_RESET (R194 and the rules it names: R131, R149, R165, R172, R177): registers and order side at their reset values, the array forced to sleep. A domain standing down goes on standing down. What each bank and its account become, by bank state (R127, R143), for the banks of R144; that k is handed over where ARMING regions drop (R165, R151) is log 30. -/
def Obligations.PinResetEffect : Prop :=
  ∀ s : State, s.port.resetHeld = false → StandDownReported s →
    ∃ t, exec .pinReset s = .next t
    ∧ t.port = { PortRegs.reset with resetHeld := true }
    ∧ t.engine = { state := .disabled, haltReason := .noReason }
    ∧ t.channel = { queue := [], outstanding := none, nextTag := s.channel.nextTag }
    ∧ t.reporting = Reporting.reset ∧ t.intake = Intake.reset ∧ t.pool = Pool.reset ∧ (∀ l, laneEntry t l = none)
    ∧ t.strokes = StrokeEngine.reset
    ∧ (∀ b : BankId, t.banks[b].requests = [] ∧ t.banks[b].standDown = s.banks[b].standDown
        ∧ t.banks[b].inHand = s.banks[b].inHand.map fun q => { q with stroke := none })
    ∧ (∀ r : RegionId, t.regions[r] = if s.regions[r].state = .arming then { state := .dropped, owner := none, sweep := 0 } else s.regions[r])
    ∧ t.refresh.tempClass = s.refresh.tempClass ∧ t.refresh.sampleTimer = s.refresh.sampleTimer ∧ t.refresh.breaches = s.refresh.breaches
    ∧ t.domains = { s.domains with requests := [], serving := s.domains.serving.map fun v => { v with owner := none } }
    ∧ (s.arrayMode.mode = .run → t.arrayMode.idleTimer = none ∧ (∀ b : BankId, bankAwake t.banks[b] = true → t.banks[b].sleepHold = true)
        ∧ ((∀ b : BankId, bankAwake t.banks[b] = false) → t.arrayMode.mode = .asleep)
        ∧ ((∃ b : BankId, bankAwake t.banks[b] = true) → t.arrayMode.mode = .enteringSleep))
    ∧ (s.arrayMode.mode = .enteringSleep ∨ s.arrayMode.mode = .asleep → t.arrayMode = s.arrayMode)
    ∧ (s.arrayMode.mode = .waking → t.arrayMode = { s.arrayMode with forcedSleep := true })
    ∧ t.array = s.array ∧ t.pending = s.pending
    ∧ ((∀ b, BankRefreshLegal s b) → ∀ b : BankId, t.refresh.banks[b].k = retainedCount t b
        ∧ ∃ x : Bank, x = { s.banks[b] with requests := [], inHand := s.banks[b].inHand.map fun q => { q with stroke := none } }
        ∧ (s.arrayMode.mode ≠ .run → t.banks[b] = x)
        ∧ (s.arrayMode.mode = .run → t.banks[b] =
            match s.banks[b].state with
            | .unpowered | .asleep => x
            | .idle => { x with state := .asleep, openRow := none, streak := 0, sleepHold := false }
            | .opened => { x with state := .closing, sleepHold := true }
            | .opening | .accessing | .closing | .refreshing => { x with sleepHold := true })
        ∧ (s.arrayMode.mode = .run → s.banks[b].state = .idle → ∃ r, HandedK s b (retainedCount t b) r
            ∧ t.refresh.banks[b] = { r with account := 0, timer := none, void := false })
        ∧ (¬(s.arrayMode.mode = .run ∧ s.banks[b].state = .idle) → HandedK s b (retainedCount t b) t.refresh.banks[b]))

/-- ENGINE_RESET, a CONTROL write with ENGINE_RESET 1 (R182, R194 and the rules it names). ARMING regions drop (R165), and the lower k of their bank is handed over (R151, R134); that R130 and R149, by which accounts and k stay, give way there is the model's reading, log 30. -/
def Obligations.EngineResetEffect : Prop :=
  ∀ (s : State) (v : Word), s.port.resetHeld = false → (∀ b, BankRefreshLegal s b) →
    ∃ t, exec (.engineReset v) s = .next t
    ∧ t.port = { s.port with enable := false, cancelStatus := .noWrite, notifyPending := false, faultPending := false, drainedPending := false }
    ∧ t.engine = { s.engine with state := .disabled }
    ∧ t.channel = { queue := [], outstanding := none, nextTag := s.channel.nextTag }
    ∧ t.reporting = Reporting.reset ∧ t.intake = Intake.reset ∧ t.pool = Pool.reset ∧ (∀ l, laneEntry t l = none)
    ∧ t.strokes = StrokeEngine.reset
    ∧ (∀ b : BankId, t.banks[b] = { s.banks[b] with requests := [], inHand := s.banks[b].inHand.map fun q => { q with stroke := none } })
    ∧ (∀ r : RegionId, t.regions[r] = if s.regions[r].state = .arming then { state := .dropped, owner := none, sweep := 0 } else s.regions[r])
    ∧ (∀ b : BankId, t.refresh.banks[b].k = retainedCount t b ∧ HandedK s b (retainedCount t b) t.refresh.banks[b])
    ∧ (∀ b : BankId, (∀ g, regionState s (regionOf b g) ≠ .arming) → t.refresh.banks[b] = s.refresh.banks[b])
    ∧ t.refresh.tempClass = s.refresh.tempClass ∧ t.refresh.sampleTimer = s.refresh.sampleTimer ∧ t.refresh.breaches = s.refresh.breaches
    ∧ t.domains = { s.domains with requests := [], serving := s.domains.serving.map fun v => { v with owner := none } }
    ∧ t.arrayMode = { s.arrayMode with
        idleTimer := if s.arrayMode.mode = .run then idleIntervalUs s.port.idleSleep else s.arrayMode.idleTimer }
    ∧ t.array = s.array ∧ t.pending = s.pending

/-- Register reads (R180, R181, R183): each field of CONTROL, EXBASE, CANCEL, STATUS and EVENTS at its bits with its codes, every other bit 0; in the states of IntakeLegal (StepKeepsCountsAndTimers) at most four page records are held (R41), so STATUS 27:25 is their number and 31:28 read 0. A 32-bit read at an unaligned offset returns 0, a narrower one the addressed bytes, across two registers by log 17. From a pin reset until RESET_N_RELEASE, reads return the reset values, writes are ignored and nothing is issued (R180, R194); the release ends this. A second PIN_RESET while RESET_N is held is none (log 21). -/
def Obligations.HeldWindowAnswersReset : Prop :=
  (∀ s : State, exec .resetNRelease s = .next { s with port := { s.port with resetHeld := false } })
    ∧ (∀ s : State, s.port.resetHeld = true →
        readRegister s 0x00#5 .word = 0x3220#32 ∧ (∀ o : BitVec 5, o ≠ 0 → readRegister s o .word = 0)
        ∧ exec .pinReset s = .next s ∧ exec .accessIssue s = .next s
        ∧ ∀ (v : Word) (c : Instr), c ∈ [Instr.engineReset v, .engineEnable v, .engineDisable v, .pollSet v, .idleSleepSet v,
            .responseSet v, .exbaseWrite v, .nudge v, .cancel v, .eventsWrite v] → exec c s = .next s)
  ∧ (∀ (s : State) (c w e : Word), s.port.resetHeld = false → c = readRegister s 0x00#5 .word → w = readRegister s 0x10#5 .word →
      e = readRegister s 0x14#5 .word →
      (c.getLsbD 0 = s.port.enable ∧ c.extractLsb' 1 3 = 0 ∧ c.extractLsb' 4 2 = s.port.poll ∧ c.extractLsb' 6 2 = 0
        ∧ c.extractLsb' 8 3 = s.port.idleSleep ∧ c.getLsbD 11 = false ∧ c.extractLsb' 12 3 = s.port.response ∧ c.extractLsb' 15 17 = 0)
      ∧ readRegister s 0x04#5 .word = s.port.exbase ++ 0#6
      ∧ readRegister s 0x08#5 .word = 0 ∧ readRegister s 0x18#5 .word = 0 ∧ readRegister s 0x1C#5 .word = 0
      ∧ (readRegister s 0x0C#5 .word).toNat = CancelStatus.code s.port.cancelStatus
      ∧ ((w.extractLsb' 0 3).toNat = EngineState.code s.engine.state ∧ w.getLsbD 3 = false
        ∧ (w.extractLsb' 4 3).toNat = IntakeState.code s.intake.state ∧ w.getLsbD 7 = false
        ∧ (w.extractLsb' 8 3).toNat = IntakeFault.code s.intake.faultReason ∧ w.getLsbD 11 = false
        ∧ (w.extractLsb' 12 2).toNat = HaltReason.code s.engine.haltReason ∧ w.extractLsb' 14 2 = 0
        ∧ (w.extractLsb' 16 2).toNat = ArrayMode.code s.arrayMode.mode
        ∧ (w.extractLsb' 18 2).toNat = tempClassCode s.refresh.tempClass
        ∧ (w.extractLsb' 20 5).toNat = occupied s ∧ (w.extractLsb' 25 7).toNat = s.intake.records.length % 128
        ∧ (IntakeLegal s → (w.extractLsb' 25 3).toNat = s.intake.records.length ∧ w.extractLsb' 28 4 = 0))
      ∧ e.getLsbD 0 = s.port.notifyPending ∧ e.getLsbD 1 = s.port.alertPending ∧ e.getLsbD 2 = s.port.faultPending
      ∧ e.getLsbD 3 = s.port.drainedPending ∧ e.extractLsb' 4 4 = 0 ∧ e.getLsbD 8 = s.port.notifyEnable
      ∧ e.getLsbD 9 = s.port.alertEnable ∧ e.getLsbD 10 = s.port.faultEnable ∧ e.getLsbD 11 = s.port.drainedEnable
      ∧ e.extractLsb' 12 20 = 0)
  ∧ (∀ (s : State) (o : BitVec 5),
      (o.toNat % 4 ≠ 0 → readRegister s o .word = 0)
      ∧ readRegister s o .byte = ((readRegister s (o &&& 0x1C#5) .word).extractLsb' (8 * (o.toNat % 4)) 8).setWidth 32
      ∧ (readRegister s o .half).toNat = (readRegister s o .byte).toNat
          + 256 * (if o.toNat < 31 then (readRegister s (o + 1) .byte).toNat else 0))
  ∧ ([EngineState.disabled, .starting, .running, .draining, .halted].map EngineState.code = [0, 1, 2, 3, 4]
    ∧ [IntakeState.off, .watch, .reading, .stalledPool, .stalledPages, .broken].map IntakeState.code = [0, 1, 2, 3, 4, 5]
    ∧ [IntakeFault.noFault, .tally, .noNext, .pageMismatch, .entryMismatch, .bus].map IntakeFault.code = [0, 1, 2, 3, 4, 5]
    ∧ [HaltReason.noReason, .start, .reportBus].map HaltReason.code = [0, 1, 2]
    ∧ [ArrayMode.run, .enteringSleep, .asleep, .waking].map ArrayMode.code = [0, 1, 2, 3]
    ∧ [TempClass.normal, .warm, .hot].map tempClassCode = [0, 1, 2]
    ∧ [CancelStatus.noWrite, .accepted, .applied, .missed, .refusedFull, .refusedState].map CancelStatus.code = [0, 1, 2, 3, 4, 5])

/-! ## Register writes -/

/-- POLL_SET, IDLE_SLEEP_SET, RESPONSE_SET, and ENABLE writes that leave ENABLE unchanged: the three fields take the written values; a changed POLL code restarts the poll timer in WATCH (R28), a changed IDLE_SLEEP code the idle timer (R174); nothing else changes but what the arbiter then does (R182, R186). The intervals of the codes in µs: POLL off, 20, 200, 2,000 (R28), IDLE_SLEEP never, 100, 1,000, 10,000, and 100,000 for 4 to 7 (R174). -/
def Obligations.ControlFieldsTakeWrittenValues : Prop :=
  ([0#2, 1#2, 2#2, 3#2].map pollIntervalUs = [none, some 20, some 200, some 2000]
    ∧ [0#3, 1#3, 2#3, 3#3, 4#3, 5#3, 6#3, 7#3].map idleIntervalUs =
        [none, some 100, some 1000, some 10000, some 100000, some 100000, some 100000, some 100000])
  ∧ ∀ (s : State) (v : Word) (c : Instr), s.port.resetHeld = false → v.getLsbD 1 = false → v.getLsbD 0 = s.port.enable →
    (c = .pollSet v ∨ c = .idleSleepSet v ∨ c = .responseSet v ∨ (c = .engineEnable v ∧ s.port.enable = true)
      ∨ (c = .engineDisable v ∧ s.port.enable = false)) →
    exec c s = .next (issueAccess { s with
      port := { s.port with poll := v.extractLsb' 4 2, idleSleep := v.extractLsb' 8 3, response := v.extractLsb' 12 3 }
      intake := { s.intake with
        pollTimer := if v.extractLsb' 4 2 ≠ s.port.poll ∧ s.intake.state = .watch then pollIntervalUs (v.extractLsb' 4 2)
          else s.intake.pollTimer }
      arrayMode := { s.arrayMode with
        idleTimer := if v.extractLsb' 8 3 ≠ s.port.idleSleep ∧ s.arrayMode.mode = .run ∧ busy s = false then
          idleIntervalUs (v.extractLsb' 8 3) else s.arrayMode.idleTimer } })

/-- ENGINE_ENABLE with the engine DISABLED: STARTING, halt reason NONE, and the 8-byte start read at EXBASE, issued at once with the limit the write leaves in CONTROL (R189, R186). That the read takes the tag `nextTag` and the count goes on by 1 is the model's choice (log 11). -/
def Obligations.EnableStartsTheEngine : Prop :=
  ∀ (s : State) (v : Word), s.port.resetHeld = false → v.getLsbD 1 = false → v.getLsbD 0 = true → s.port.enable = false →
    s.engine.state = .disabled → s.channel.queue = [] → s.channel.outstanding = none →
    ∃ t, exec (.engineEnable v) s = .next t
    ∧ t.engine = { state := .starting, haltReason := .noReason }
    ∧ t.port = { s.port with enable := true, poll := v.extractLsb' 4 2, idleSleep := v.extractLsb' 8 3, response := v.extractLsb' 12 3 }
    ∧ t.channel =
        { queue := [],
          outstanding := some { request := .startRead, tag := s.channel.nextTag, address := exbaseAddress s, payload := .read 8,
                                stage := .first, limitUs := 2 ^ (v.extractLsb' 12 3).toNat, carriesNotify := false },
          nextTag := s.channel.nextTag + 1 }
    ∧ t.intake.state = s.intake.state ∧ SameWalk s t ∧ t.reporting = s.reporting ∧ SameOrders s t ∧ SameArraySide s t
    ∧ t.arrayMode.mode = s.arrayMode.mode ∧ t.pending = s.pending

/-- ENGINE_ENABLE with the engine DRAINING: RUNNING again; the intake enters WATCH, or stays READING while the read of the disable is still outstanding (R192, R27). An ENABLE change in STARTING or HALTED is recorded in CONTROL and is no event for the engine (R182, R189). -/
def Obligations.EnableResumesOrIsRecorded : Prop :=
  (∀ (s : State) (v : Word) (c : Instr), s.port.resetHeld = false → v.getLsbD 1 = false →
    s.engine.state = .starting ∨ s.engine.state = .halted →
    (c = .engineEnable v ∧ v.getLsbD 0 = true ∨ c = .engineDisable v ∧ v.getLsbD 0 = false) →
    ∃ u, exec c s = .next (issueAccess u) ∧ u.port.enable = v.getLsbD 0 ∧ u.engine = s.engine ∧ u.channel = s.channel
    ∧ u.reporting = s.reporting ∧ u.intake.state = s.intake.state ∧ SameWalk s u ∧ SameOrders s u ∧ SameArraySide s u
    ∧ u.arrayMode.mode = s.arrayMode.mode ∧ u.pending = s.pending)
  ∧ ∀ (s : State) (v : Word), s.port.resetHeld = false → v.getLsbD 1 = false → v.getLsbD 0 = true → s.port.enable = false →
    s.engine.state = .draining → s.intake.nudgePending = false →
    ∃ u, exec (.engineEnable v) s = .next (issueAccess u)
    ∧ u.engine = { s.engine with state := .running } ∧ u.port.enable = true
    ∧ (s.intake.readAbandoned = true → u.intake.state = s.intake.state ∧ u.intake.readAbandoned = true ∧ u.channel = s.channel)
    ∧ (s.intake.readAbandoned = false → Watches u)
    ∧ SameWalk s u ∧ u.intake.target = s.intake.target ∧ u.channel.outstanding = s.channel.outstanding
    ∧ SameOrders s u ∧ SameArraySide s u ∧ u.arrayMode.mode = s.arrayMode.mode ∧ u.pending = s.pending

/-- ENGINE_DISABLE with the engine RUNNING: DRAINING, or DISABLED at once when the pool is empty and no REPORT request and no INTAKE access remains; the intake stops (R191, R26, R68, R20). ENGINE_DRAINED: the draining engine is DISABLED once the three conditions hold; before that nothing happens (R191). `drainedTest` is this test, which the statements of REPORT and INTAKE completions name. -/
def Obligations.DisableDrainsTheEngine : Prop :=
  (∀ (s : State) (v : Word), s.port.resetHeld = false → v.getLsbD 1 = false → v.getLsbD 0 = false → s.port.enable = true →
    s.engine.state = .running →
    ∃ u, exec (.engineDisable v) s = .next (issueAccess u)
    ∧ u.port.enable = false ∧ u.engine.haltReason = s.engine.haltReason
    ∧ (intakeOutstanding s = true → u.intake.state = s.intake.state ∧ u.intake.readAbandoned = true ∧ u.intake.pollTimer = none
        ∧ u.intake.nudgePending = false ∧ u.channel = s.channel)
    ∧ (intakeOutstanding s = false → Off u ∧ u.channel.queue = s.channel.queue.filter fun r => !r.isIntake)
    ∧ (occupied s = 0 ∧ reportHeld s = false ∧ intakeOutstanding s = false →
        u.engine.state = .disabled ∧ u.port.drainedPending = true ∧ u.pool.cancelList = [] ∧ u.intake.records = [])
    ∧ (¬(occupied s = 0 ∧ reportHeld s = false ∧ intakeOutstanding s = false) →
        u.engine.state = .draining ∧ u.port.drainedPending = s.port.drainedPending ∧ u.pool = s.pool ∧ SameWalk s u)
    ∧ u.intake.expected = s.intake.expected ∧ u.intake.target = s.intake.target ∧ u.intake.faultReason = s.intake.faultReason
    ∧ u.pool = { s.pool with cancelList := u.pool.cancelList } ∧ u.table = s.table ∧ u.strokes = s.strokes
    ∧ SameArraySide s u ∧ u.arrayMode.mode = s.arrayMode.mode ∧ u.reporting = s.reporting ∧ u.pending = s.pending)
  ∧ (∀ s : State, s.engine.state = .draining → occupied s = 0 → reportHeld s = false → intakeOutstanding s = false →
    exec .engineDrained s = .next { s with
      engine := { s.engine with state := .disabled }, port := { s.port with drainedPending := true }
      pool := { s.pool with cancelList := [] }, intake := { s.intake with records := [] } })
  ∧ (∀ s : State, (s.engine.state ≠ .draining ∨ occupied s ≠ 0 ∨ reportHeld s = true ∨ intakeOutstanding s = true) →
    exec .engineDrained s = .next s)
  ∧ ∀ s : State, exec .engineDrained s = .next (drainedTest s)
    ∧ occupied s = (List.finRange 16).countP (fun i => (slotOrder s i).isSome)
    ∧ (reportHeld s = true ↔ ∃ r, Requested s r ∧ r.isReport = true)
    ∧ (intakeOutstanding s = true ↔ ∃ a, s.channel.outstanding = some a ∧ a.request.isIntake = true)
    ∧ (engineLive s = true ↔ s.engine.state = .running ∨ s.engine.state = .draining)

/-- EXBASE_WRITE: in DISABLED bits 31:6 are stored and bits 5:0 dropped, in every other engine state the write is ignored (R182). EVENTS_WRITE: pending bits written 1 clear, the others stay, the enable bits take the written values; INT_N is asserted exactly while a pending bit is set with its enable bit (R184). -/
def Obligations.ExbaseAndEventsWrites : Prop :=
  (∀ (s : State) (v : Word), s.port.resetHeld = false →
    (s.engine.state ≠ .disabled → exec (.exbaseWrite v) s = .next s)
    ∧ (s.engine.state = .disabled → ∃ t, exec (.exbaseWrite v) s = .next t
        ∧ readRegister t 0x04#5 .word = v &&& 0xFFFFFFC0#32 ∧ exbaseAddress t = v &&& 0xFFFFFFC0#32
        ∧ t = { s with port := { s.port with exbase := t.port.exbase } }))
  ∧ (∀ s : State, intAsserted s = true ↔
    (s.port.notifyPending = true ∧ s.port.notifyEnable = true) ∨ (s.port.alertPending = true ∧ s.port.alertEnable = true)
      ∨ (s.port.faultPending = true ∧ s.port.faultEnable = true) ∨ (s.port.drainedPending = true ∧ s.port.drainedEnable = true))
  ∧ ∀ (s : State) (v : Word), s.port.resetHeld = false →
    exec (.eventsWrite v) s = .next { s with port := { s.port with
      notifyPending := if v.getLsbD 0 then false else s.port.notifyPending
      alertPending := if v.getLsbD 1 then false else s.port.alertPending
      faultPending := if v.getLsbD 2 then false else s.port.faultPending
      drainedPending := if v.getLsbD 3 then false else s.port.drainedPending
      notifyEnable := v.getLsbD 8
      alertEnable := v.getLsbD 9
      faultEnable := v.getLsbD 10
      drainedEnable := v.getLsbD 11 } }

/-- NUDGE by engine and intake state (R29, R46). -/
def Obligations.NudgeActsByIntakeState : Prop :=
  ∀ (s : State) (v : Word), s.port.resetHeld = false →
    (s.engine.state ≠ .running → exec (.nudge v) s = .next s)
    ∧ (s.engine.state = .running → ∃ u, exec (.nudge v) s = .next (issueAccess u)
        ∧ (s.intake.state = .watch → Reads .tally u ∧ u.intake.nudgePending = s.intake.nudgePending)
        ∧ (s.intake.state = .reading ∨ s.intake.state = .stalledPool ∨ s.intake.state = .stalledPages →
            u = { s with intake := { s.intake with nudgePending := true } })
        ∧ (∀ step, s.intake.state = .broken → s.intake.failedStep = some step →
            Reads step u ∧ u.intake.faultReason = .noFault ∧ u.intake.nudgePending = s.intake.nudgePending)
        ∧ (s.intake.state = .off → u = s)
        ∧ IntakeOnly s u ∧ SameWalk s u ∧ u.intake.target = s.intake.target ∧ u.intake.candidate = s.intake.candidate
        ∧ u.port = s.port ∧ u.reporting = s.reporting)

/-- REGISTER_WRITE_OTHER and STALE_RESPONSE_DISCARD have no effect; nor has any response whose tag is not that of the outstanding access (R180, R187). -/
def Obligations.IgnoredWritesAndStaleResponses : Prop :=
  (∀ s offset size v, exec (.registerWriteOther offset size v) s = .next s)
    ∧ (∀ s tag, exec (.staleResponseDiscard tag) s = .next s)
    ∧ ∀ (s : State) (tag : Nat), (∀ a, s.channel.outstanding = some a → a.tag ≠ tag) →
        ∀ (w x : Word) (e : EntryWords) (d : Line) (c : Instr),
          c ∈ [Instr.startReadComplete tag w x, .startReadFail tag, .tallyReadComplete tag w, .nextReadComplete tag w,
            .firstSeqReadComplete tag w, .entryReadComplete tag e, .intakeReadFail tag, .resultWriteComplete tag,
            .estateWriteComplete tag, .headerUpdateComplete tag, .releaseWriteComplete tag, .reportAccessFail tag,
            .loadHostReadComplete tag d, .fetchHostWriteComplete tag, .dataAccessFail tag] → exec c s = .next s

/-! ## CANCEL -/

/-- CANCEL of an order not yet taken, and in an engine state that takes none (R60, R61). -/
def Obligations.CancelOfUntakenOrder : Prop :=
  ∀ (s : State) (q : Word), s.port.resetHeld = false →
    (engineLive s = false →
      exec (.cancel q) s = .next (settle s { s with port := { s.port with cancelStatus := .refusedState } }))
    ∧ (engineLive s = true → (q - s.pool.taken).toNat < 2147483648 →
        (q ∈ s.pool.cancelList → exec (.cancel q) s = .next (settle s { s with port := { s.port with cancelStatus := .accepted } }))
        ∧ (q ∉ s.pool.cancelList → s.pool.cancelList.length < 4 →
            exec (.cancel q) s = .next (settle s { s with
              port := { s.port with cancelStatus := .accepted }, pool := { s.pool with cancelList := s.pool.cancelList ++ [q] } }))
        ∧ (q ∉ s.pool.cancelList → 4 ≤ s.pool.cancelList.length →
            exec (.cancel q) s = .next (settle s { s with port := { s.port with cancelStatus := .refusedFull } })))

/-- CANCEL of a taken order (R60, R63, R64): one that has left the pool, or is STOPPING or REPORTING, is MISSED; a QUEUED one is marked; a WAITING one reports CANCELLED. A RUNNING one is MISSED once its ramp has begun, otherwise APPLIED: stop cause CANCELLED, its POWER request removed, no stroke issued any more, and CANCELLED reported at once when nothing is in flight (R85). -/
def Obligations.CancelOfTakenOrder : Prop :=
  (∀ (s : State) (q : Word), s.port.resetHeld = false → engineLive s = true → 2147483648 ≤ (q - s.pool.taken).toNat →
    ((∀ i o, slotOrder s i = some o → o.seq ≠ q) →
      exec (.cancel q) s = .next (settle s { s with port := { s.port with cancelStatus := .missed } }))
    ∧ ∀ i o, slotOrder s i = some o → o.seq = q → (∀ j p, slotOrder s j = some p → p.seq = q → j = i) →
        (o.life = .stopping ∨ o.life = .reporting →
          exec (.cancel q) s = .next (settle s { s with port := { s.port with cancelStatus := .missed } }))
        ∧ (o.life = .queued → exec (.cancel q) s = .next (settle s { s with
            port := { s.port with cancelStatus := .applied }
            pool := { s.pool with slots := s.pool.slots.set i (some { o with cancelMark := true }) } }))
        ∧ (o.life = .waiting → HeldAt s o.entry.lane i o → ∃ u, exec (.cancel q) s = .next (settle s u)
            ∧ Reports u i o .cancelled 0 0 0 ∧ u.port = { s.port with cancelStatus := .applied } ∧ u.engine = s.engine
            ∧ (∀ j, j ≠ i → slotOrder u j = slotOrder s j) ∧ (∀ m, m ≠ o.entry.lane → laneEntry u m = laneEntry s m)
            ∧ SameArraySide s u ∧ u.intake = s.intake ∧ u.reporting = s.reporting))
  ∧ ∀ (s : State) (q : Word) (i : SlotId) (o : PoolOrder), s.port.resetHeld = false → engineLive s = true →
    2147483648 ≤ (q - s.pool.taken).toNat → slotOrder s i = some o → o.seq = q →
    (∀ j p, slotOrder s j = some p → p.seq = q → j = i) → o.life = .running → HeldAt s o.entry.lane i o →
    (rampOf s { lane := o.entry.lane, seq := q } = true →
      exec (.cancel q) s = .next (settle s { s with port := { s.port with cancelStatus := .missed } }))
    ∧ (rampOf s { lane := o.entry.lane, seq := q } = false → ∃ u, exec (.cancel q) s = .next (settle s u)
        ∧ u.port = { s.port with cancelStatus := .applied } ∧ u.engine = s.engine ∧ u.intake = s.intake
        ∧ (inFlight s o.entry.lane ≠ 0 → slotOrder u i = some { o with life := .stopping, stopCause := some .cancelled }
            ∧ ∀ g, u.strokes.generators[o.entry.lane] = some g → g.issuing = false)
        ∧ (inFlight s o.entry.lane = 0 → slotOrder u i = some { o with
              life := .reporting, stopCause := some .cancelled, outcome := some .cancelled, reason := 0 } ∧ .result i ∈ u.channel.queue ∧ u.strokes.generators[o.entry.lane] = none)
        ∧ u.domains = { s.domains with requests := s.domains.requests.filter fun r => !(r.order == { lane := o.entry.lane, seq := q }) }
        ∧ (∀ r : RegionId, u.regions[r] = if armedBy s { lane := o.entry.lane, seq := q } r then { state := .dropped, owner := none, sweep := 0 }
            else s.regions[r])
        ∧ u.strokes.records = s.strokes.records ∧ (∀ j, j ≠ i → slotOrder u j = slotOrder s j) ∧ u.array = s.array)

/-! ## The master channel -/

/-- ACCESS_ISSUE (R186, R17, R18, R30): nothing while an access is outstanding or no queued request may be issued in the engine state; otherwise the oldest REPORT request, else the INTAKE request, else the DATA request before every other by sequence and index. The issue takes the next tag (log 11) and the limit 2^c µs of CONTROL; a header update takes notify-owed, a tally read clears nudge-pending. `issueAccess`, which other statements answer, is what ACCESS_ISSUE does; the classes of requests are those of R185, and sequences are ordered by the wrap comparison (R6). -/
def Obligations.AccessIssuePicksByClass : Prop :=
  (∀ r, mayIssue .disabled r = false ∧ mayIssue .halted r = false ∧ (mayIssue .starting r = true ↔ r = .startRead)
    ∧ mayIssue .running r = true ∧ mayIssue .draining r = true)
  ∧ (∀ s : State, exec .accessIssue s = .next (issueAccess s))
  ∧ (∀ a b : Word, seqBefore a b = true ↔ 1 ≤ (b - a).toNat ∧ (b - a).toNat < 2147483648)
  ∧ (∀ i j : StrokeId, dataBefore i j = true ↔ seqBefore i.seq j.seq = true ∨ (i.seq = j.seq ∧ i.index < j.index))
  ∧ (∀ r : Request, (r.isReport = true ↔ (∃ i, r = .result i ∨ r = .estate i) ∨ r = .headerUpdate ∨ r = .release)
      ∧ (r.isIntake = true ↔ r = .startRead ∨ ∃ step, r = .intakeRead step)
      ∧ ∀ i, r.dataStroke = some i ↔ r = .hostRead i ∨ r = .hostWrite i)
  ∧ (∀ s : State, (s.channel.outstanding.isSome = true ∨ ∀ r ∈ s.channel.queue, mayIssue s.engine.state r = false) →
      exec .accessIssue s = .next s)
  ∧ ∀ (s : State) (before after : List Request) (r : Request), s.port.resetHeld = false → s.channel.outstanding = none →
      s.channel.queue.filter (mayIssue s.engine.state) = before ++ r :: after →
      ((r.isReport = true ∧ ∀ x ∈ before, x.isReport = false)
        ∨ (r.isIntake = true ∧ (∀ x ∈ before ++ after, x.isReport = false) ∧ ∀ x ∈ before, x.isIntake = false)
        ∨ ∃ i, r.dataStroke = some i ∧ (∀ x ∈ before ++ after, x.isReport = false ∧ x.isIntake = false)
            ∧ (∀ x ∈ before, ∀ j, x.dataStroke = some j → dataBefore i j = true)
            ∧ ∀ x ∈ after, ∀ j, x.dataStroke = some j → dataBefore j i = false) →
      exec .accessIssue s = .next { s with
        channel :=
          { queue := s.channel.queue.erase r
            outstanding := some { request := r, tag := s.channel.nextTag, address := (accessOf s r).1, payload := (accessOf s r).2,
                                  stage := .first, limitUs := 2 ^ s.port.response.toNat,
                                  carriesNotify := r == .headerUpdate && s.reporting.notifyOwed }
            nextTag := s.channel.nextTag + 1 }
        reporting := if r = .headerUpdate then { s.reporting with headerPending := false, notifyOwed := false } else s.reporting
        intake := if r = .intakeRead .tally then { s.intake with nudgePending := false } else s.intake }

/-- The address and data of every access of the engine, the intake and the reporting logic (R1, R7, R12, R13, R17, R20, R31, R35, R36, R38, R189), the bits and codes of CONDITION (R3) and the outcome codes (R86). The data of a FETCH host write is what the stroke's buffer holds (R102). -/
def Obligations.AccessAddressesAndData : Prop :=
  ∀ s : State,
    accessOf s .startRead = (exbaseAddress s, .read 8)
    ∧ accessOf s (.intakeRead .tally) = (exbaseAddress s, .read 4)
    ∧ accessOf s (.intakeRead .next) = (s.intake.currentPage, .read 4)
    ∧ accessOf s (.intakeRead .header) = (s.intake.candidate + 8, .read 4)
    ∧ accessOf s (.intakeRead .entry) = (s.intake.currentPage + 32 + 32 * BitVec.ofNat 32 s.intake.nextSlot, .read 24)
    ∧ accessOf s .headerUpdate = (exbaseAddress s + 16, .writeWords
        [s.pool.taken, s.pool.finished, s.reporting.released, s.pool.oldestOpen, (lostMap s).extractLsb' 0 32,
          (lostMap s).extractLsb' 32 32, s.refresh.breaches, conditionWord s])
    ∧ (∀ r : RegionId, (lostMap s).getLsbD r.val = true ↔ s.regions[r].state = .lost)
    ∧ (∀ i o, slotOrder s i = some o →
        accessOf s (.result i) = (o.pageAddress + 32 + 32 * BitVec.ofNat 32 o.entrySlot + 24,
          .writeWords [resultWord6 o, BitVec.ofNat 32 o.done])
        ∧ accessOf s (.estate i) = (o.pageAddress + 32 + 32 * BitVec.ofNat 32 o.entrySlot,
          .writeWords [(3#8 ++ o.entry.word0.extractLsb' 0 24 : BitVec 32)]))
    ∧ (∀ p rest, s.intake.records = p :: rest → accessOf s .release = (p.address + 4, .writeWords [2]))
    ∧ (∀ o c, o.outcome = some c → o.reason < 256 → o.corrected < 65536 →
        (resultWord6 o).toNat = c.code + 256 * o.reason + 65536 * o.corrected)
    ∧ (∀ i r, findStroke s i = some r →
        accessOf s (.hostRead i) = (r.hostPlace, .read 64)
        ∧ accessOf s (.hostWrite i) = (r.hostPlace, .writeLine (strokeData s r)))
    ∧ (∀ i, findStroke s i = s.strokes.records.find? fun r => r.id = i)
    ∧ (∀ (r : StrokeRecord) (b : BufferId) (h : BufferHold) (d : Line), r.buffer = some b → s.strokes.buffers[b] = some h →
        h.data = some d → strokeData s r = d)
    ∧ exbaseAddress s = s.port.exbase ++ 0#6
    ∧ (((conditionWord s).extractLsb' 0 2).toNat = tempClassCode s.refresh.tempClass
      ∧ ((conditionWord s).extractLsb' 2 2).toNat = ArrayMode.code s.arrayMode.mode
      ∧ (∀ d : DomainId, ((conditionWord s).extractLsb' (4 + 2 * d.val) 2).toNat = DomainState.code s.domains.states[d])
      ∧ ((conditionWord s).extractLsb' 12 3).toNat = IntakeState.code s.intake.state
      ∧ (conditionWord s).extractLsb' 15 17 = 0)
    ∧ [TempClass.normal, .warm, .hot].map tempClassCode = [0, 1, 2]
    ∧ [ArrayMode.run, .enteringSleep, .asleep, .waking].map ArrayMode.code = [0, 1, 2, 3]
    ∧ [DomainState.off, .rampingUp, .on, .rampingDown].map DomainState.code = [0, 1, 2, 3]
    ∧ [IntakeState.off, .watch, .reading, .stalledPool, .stalledPages, .broken].map IntakeState.code = [0, 1, 2, 3, 4, 5]
    ∧ [OutcomeCode.ok, .okCorrected, .dataError, .badOrder, .cancelled, .regionDropped, .regionLost, .domainOff,
        .hostBusFault].map OutcomeCode.code = [1, 2, 3, 4, 5, 6, 7, 8, 9]

/-- RESPONSE_LIMIT_EXPIRY: the first expiry issues the same access again, the second fails it as an error response would (R187, R188). That nothing happens with no access outstanding is the model's choice (logs 2 and 9). -/
def Obligations.ResponseLimitExpiresTwice : Prop :=
  (∀ s : State, s.channel.outstanding = none → exec .responseLimitExpiry s = .next s)
  ∧ (∀ (s : State) (a : Access), s.channel.outstanding = some a → a.stage = .first →
      exec .responseLimitExpiry s = .next { s with channel := { s.channel with outstanding := some { a with stage := .reissued } } })
  ∧ ∀ (s : State) (a : Access), s.channel.outstanding = some a → a.stage = .reissued →
      (a.request = .startRead → exec .responseLimitExpiry s = exec (.startReadFail a.tag) s)
      ∧ (∀ step, a.request = .intakeRead step → exec .responseLimitExpiry s = exec (.intakeReadFail a.tag) s)
      ∧ (a.request.isReport = true → exec .responseLimitExpiry s = exec (.reportAccessFail a.tag) s)
      ∧ (a.request.dataStroke.isSome = true → exec .responseLimitExpiry s = exec (.dataAccessFail a.tag) s)

/-! ## The engine -/

/-- START_READ_COMPLETE and START_READ_FAIL (R190, R25, R9): a failed read or an invalid FIRST_PAGE halts with START; a valid one begins the run, and with ENABLE 0 the engine goes on to DRAINING. -/
def Obligations.StartReadDecidesTheRun : Prop :=
  ∀ (s : State) (tag : Nat) (posted page : Word), Awaits s tag .startRead → HeaderFlagAgrees s →
    exec (.startReadFail tag) s = .next (settle (freed s) { freed s with
      engine := { state := .halted, haltReason := .start }, port := { s.port with faultPending := true } })
    ∧ (page = 0 ∨ page.toNat % 512 ≠ 0 →
      exec (.startReadComplete tag posted page) s = .next (settle (freed s) { freed s with
        engine := { state := .halted, haltReason := .start }, port := { s.port with faultPending := true } }))
    ∧ (page ≠ 0 → page.toNat % 512 = 0 → ∃ u, exec (.startReadComplete tag posted page) s = .next (settle (freed s) u)
        ∧ u.engine.haltReason = s.engine.haltReason
        ∧ u.pool = { s.pool with taken := 0, finished := 0, oldestOpen := 0 } ∧ u.reporting.released = 0
        ∧ u.reporting.headerPending = true ∧ .headerUpdate ∈ u.channel.queue
        ∧ u.intake.expected = 0 ∧ u.intake.target = 0 ∧ u.intake.currentPage = page ∧ u.intake.pageEntered = false
        ∧ u.intake.nextSlot = 0 ∧ u.intake.records = [] ∧ u.intake.faultReason = .noFault
        ∧ (s.port.enable = true → u.engine.state = .running ∧ Reads .tally u ∧ u.intake.nudgePending = true)
        ∧ (s.port.enable = false → u.engine.state = .draining ∧ Off u ∧ ∀ r ∈ u.channel.queue, r.isIntake = false)
        ∧ u.port = s.port ∧ u.table = s.table ∧ u.strokes = s.strokes ∧ SameArraySide s u ∧ u.arrayMode = s.arrayMode
        ∧ u.pending = s.pending)

/-- REPORT_ACCESS_FAIL: HALTED with REPORT_BUS; the intake goes to OFF; every RUNNING order goes to STOPPING with no cause, its queued POWER request withdrawn and the regions it was arming DROPPED, k handed over (R158, R151); every other order and region stays (R193, R88, R67). -/
def Obligations.ReportFailureHalts : Prop :=
  ∀ (s : State) (tag : Nat) (r : Request), Awaits s tag r → r.isReport = true → OrdersPlaced s →
    ∃ u, exec (.reportAccessFail tag) s = .next (settle (freed s) u)
    ∧ u.engine = { state := .halted, haltReason := .reportBus } ∧ u.port = { s.port with faultPending := true }
    ∧ Off u ∧ SameWalk s u ∧ u.intake.target = s.intake.target ∧ u.intake.faultReason = s.intake.faultReason
    ∧ (∀ l o, laneOrder s l = some o → laneOrder u l =
        some (if o.life = .running then { o with life := .stopping, stopCause := none } else o))
    ∧ (∀ l g, u.strokes.generators[l] = some g → (laneOrder s l).any (fun o => o.life == .running) = true → g.issuing = false)
    ∧ (∀ q, q ∈ u.domains.requests ↔ q ∈ s.domains.requests ∧
        ∀ l o, laneOrder s l = some o → o.life = .running → q.order ≠ { lane := l, seq := o.seq })
    ∧ u.domains.serving = s.domains.serving ∧ u.domains.states = s.domains.states
    ∧ u.table = s.table ∧ u.strokes.records = s.strokes.records ∧ u.strokes.buffers = s.strokes.buffers
    ∧ u.pool.taken = s.pool.taken ∧ u.pool.finished = s.pool.finished ∧ u.pool.oldestOpen = s.pool.oldestOpen
    ∧ u.pool.cancelList = s.pool.cancelList ∧ u.pool.queues = s.pool.queues ∧ u.reporting = s.reporting ∧ u.array = s.array
    ∧ u.channel.queue = s.channel.queue.filter (fun r => !r.isIntake)
    ∧ (∀ r : RegionId, (∃ l o, laneOrder s l = some o ∧ o.life = .running ∧ s.regions[r].state = .arming
        ∧ s.regions[r].owner = some { lane := l, seq := o.seq }) → u.regions[r] = { state := .dropped, owner := none, sweep := 0 })
    ∧ (∀ r : RegionId, (∀ l o, laneOrder s l = some o → o.life = .running → s.regions[r].state = .arming →
        s.regions[r].owner ≠ some { lane := l, seq := o.seq }) → u.regions[r] = s.regions[r])
    ∧ ((∀ b : BankId, s.refresh.banks[b].k = retainedCount s b) → ∀ b : BankId, u.refresh.banks[b].k = retainedCount u b
        ∧ ((∀ r : RegionId, regionBank r = b → s.regions[r].state ≠ .arming) → u.refresh.banks[b] = s.refresh.banks[b]))

/-! ## The intake -/

/-- TALLY_READ_COMPLETE with P, d = (P − expected sequence) mod 2^32 (R31, R30). -/
def Obligations.TallyReadActsOnDifference : Prop :=
  ∀ (s : State) (tag : Nat) (p : Word), Awaits s tag (.intakeRead .tally) → s.intake.readAbandoned = false →
    s.engine.state = .running →
    ∃ u, exec (.tallyReadComplete tag p) s = .next (settle (freed s) u) ∧ IntakeOnly (freed s) u ∧ SameWalk s u
    ∧ ((p - s.intake.expected).toNat = 0 → u.intake.target = p ∧ u.port = s.port
        ∧ (s.intake.nudgePending = false → Watches u) ∧ (s.intake.nudgePending = true → Reads .tally u ∧ HeaderAsked u))
    ∧ (1 ≤ (p - s.intake.expected).toNat → (p - s.intake.expected).toNat < 2147483648 →
        u.intake.target = p ∧ u.port = s.port ∧ BeginsTake s u)
    ∧ (2147483648 ≤ (p - s.intake.expected).toNat → u.intake.target = s.intake.target ∧ Breaks .tally .tally u)

/-- NEXT_READ_COMPLETE with N (R35). -/
def Obligations.NextReadChecksTheLink : Prop :=
  ∀ (s : State) (tag : Nat) (n : Word), Awaits s tag (.intakeRead .next) → s.intake.readAbandoned = false →
    s.engine.state = .running →
    ∃ u, exec (.nextReadComplete tag n) s = .next (settle (freed s) u) ∧ IntakeOnly (freed s) u ∧ SameWalk s u
    ∧ u.intake.target = s.intake.target
    ∧ (n = 0 → Breaks .noNext .next u)
    ∧ (n ≠ 0 → n.toNat % 512 ≠ 0 → Breaks .pageMismatch .next u)
    ∧ (n ≠ 0 → n.toNat % 512 = 0 → Reads .header u ∧ u.intake.candidate = n ∧ u.port = s.port ∧ u.reporting = s.reporting)

/-- FIRST_SEQ_READ_COMPLETE with F (R36, R37, R19): a wrong F breaks the intake; the right one enters the page, leaves the page before it and tests its release. The serial of the new record is the model's own (log 16). -/
def Obligations.FirstSeqReadEntersThePage : Prop :=
  ∀ (s : State) (tag : Nat) (f : Word), Awaits s tag (.intakeRead .header) → s.intake.readAbandoned = false →
    s.engine.state = .running →
    (f ≠ s.intake.expected → ∃ u, exec (.firstSeqReadComplete tag f) s = .next (settle (freed s) u)
      ∧ IntakeOnly (freed s) u ∧ SameWalk s u ∧ u.intake.target = s.intake.target
      ∧ Breaks .pageMismatch (if s.intake.pageEntered then .next else .header) u)
    ∧ (f = s.intake.expected → ∃ u, exec (.firstSeqReadComplete tag f) s = .next (settle (freed s) u)
      ∧ IntakeOnly (freed s) u ∧ u.port = s.port ∧ u.intake.expected = s.intake.expected ∧ u.intake.target = s.intake.target
      ∧ u.intake.currentPage = s.intake.candidate ∧ u.intake.pageEntered = true ∧ u.intake.nextSlot = 0
      ∧ (s.intake.pageEntered = false → u.intake.records = s.intake.records ++
          [{ serial := s.intake.nextSerial, address := s.intake.candidate, takenCount := 0, finishedCount := 0, left := false }])
      ∧ (∀ older p, s.intake.pageEntered = true → s.intake.records = older ++ [p] → u.intake.records = older ++ [{ p with left := true },
          { serial := s.intake.nextSerial, address := s.intake.candidate, takenCount := 0, finishedCount := 0, left := false }])
      ∧ (∀ p rest, s.intake.pageEntered = true → s.reporting.releaseInProgress = false → s.intake.records = p :: rest →
          (p.left = true ∨ rest = []) → p.finishedCount = p.takenCount →
          u.reporting.releaseInProgress = true ∧ .release ∈ u.channel.queue)
      ∧ ChecksPool s u)

/-- ENTRY_READ_COMPLETE (R38, R39, R62, R32): a mismatch breaks the intake; otherwise the order is taken into a free slot and its lane, the promotion condition is tested, and the intake goes on. That the new slot holds no OUTCOME and REASON 0 (log 35) and names its page record by a serial, 0 with no record (log 16), is the model's choice: R39 and R48 give neither. The oldest-open sequence (R10, R52): TAKEN for an empty pool, else the earliest sequence in the pool, the sequences lying within the span that the comparison of R6 orders. The fields of an entry that its words give (R5). -/
def Obligations.EntryReadTakesTheOrder : Prop :=
  (∀ (s : State) (tag : Nat) (e : EntryWords), Awaits s tag (.intakeRead .entry) → s.intake.readAbandoned = false →
    s.engine.state = .running →
    (e.estate ≠ 1 ∨ e.word1 ≠ s.intake.expected → ∃ u, exec (.entryReadComplete tag e) s = .next (settle (freed s) u)
      ∧ IntakeOnly (freed s) u ∧ SameWalk s u ∧ u.intake.target = s.intake.target ∧ Breaks .entryMismatch .entry u)
    ∧ (e.estate = 1 → e.word1 = s.intake.expected → (∃ i, slotOrder s i = none) → ∃ i v, slotOrder s i = none
      ∧ exec (.entryReadComplete tag e) s = .next (settle (freed s) (afterTake (promote e.lane v)))
      ∧ v = { freed s with pool := v.pool, intake := v.intake }
      ∧ v.pool.slots = s.pool.slots.set i (some
          { entry := e, pageSerial := (s.intake.records.getLast?.map (·.serial)).getD 0, pageAddress := s.intake.currentPage,
            entrySlot := s.intake.nextSlot, life := .queued, cancelMark := s.pool.cancelList.contains s.intake.expected,
            stopCause := none, outcome := none, reason := 0, corrected := 0, done := 0 })
      ∧ v.pool.queues = s.pool.queues.set e.lane (s.pool.queues[e.lane] ++ [i])
      ∧ v.pool.taken = s.pool.taken + 1 ∧ v.pool.finished = s.pool.finished
      ∧ v.pool.cancelList = s.pool.cancelList.erase s.intake.expected
      ∧ v.pool.oldestOpen = computeOldest v.pool
      ∧ v.intake = { s.intake with expected := s.intake.expected + 1, nextSlot := s.intake.nextSlot + 1, records := v.intake.records }
      ∧ ∀ older p, s.intake.records = older ++ [p] → v.intake.records = older ++ [{ p with takenCount := p.takenCount + 1 }]))
  ∧ (∀ w : State, (w.intake.expected = w.intake.target → Reads .tally (afterTake w))
      ∧ (w.intake.expected ≠ w.intake.target → BeginsTake w (afterTake w)))
  ∧ (∀ e : EntryWords, e.estate.toNat = e.word0.toNat / 16777216 ∧ e.lane.val = e.word0.toNat / 256 % 4
      ∧ e.notify = e.word0.getLsbD 10 ∧ e.seq = e.word1 ∧ e.domain.val = e.word5.toNat % 4 ∧ e.powerOn = e.word5.getLsbD 8
      ∧ e.keep = e.word5.getLsbD 16
      ∧ [OrderKind.load, .fetch, .copy, .fill, .scrub, .retain, .power, .mark].map (fun k => e.kind == some k) =
          [1, 2, 3, 4, 5, 6, 7, 8].map (fun n => e.word0.toNat % 256 == n))
  ∧ ∀ p : Pool, ((∀ i : SlotId, p.slots[i] = none) → computeOldest p = p.taken)
      ∧ ∀ (base : Word) (i : SlotId) (o : PoolOrder), p.slots[i] = some o →
        (∀ (j : SlotId) (x : PoolOrder), p.slots[j] = some x → (x.seq - base).toNat < 2147483648) →
        ∃ (j : SlotId) (x : PoolOrder), p.slots[j] = some x ∧ computeOldest p = x.seq
          ∧ ∀ (k : SlotId) (y : PoolOrder), p.slots[k] = some y → y.seq = x.seq ∨ seqBefore x.seq y.seq = true

/-- INTAKE_READ_FAIL breaks the intake with BUS at the step that failed (R44); the completion or failure of a read that a disable left outstanding is discarded (R26, R27). -/
def Obligations.IntakeReadFailsOrIsDiscarded : Prop :=
  (∀ (s : State) (tag : Nat) (step : ReadStep), Awaits s tag (.intakeRead step) → s.intake.readAbandoned = false →
    s.engine.state = .running → ∃ u, exec (.intakeReadFail tag) s = .next (settle (freed s) u)
      ∧ IntakeOnly (freed s) u ∧ SameWalk s u ∧ u.intake.target = s.intake.target ∧ u.intake.candidate = s.intake.candidate
      ∧ Breaks .bus step u)
  ∧ ∀ (s : State) (tag : Nat) (step : ReadStep) (w : Word) (e : EntryWords) (c : Instr), Awaits s tag (.intakeRead step) →
      s.intake.readAbandoned = true →
      (c = .intakeReadFail tag ∨ (step = .tally ∧ c = .tallyReadComplete tag w) ∨ (step = .next ∧ c = .nextReadComplete tag w)
        ∨ (step = .header ∧ c = .firstSeqReadComplete tag w) ∨ (step = .entry ∧ c = .entryReadComplete tag e)) →
      ∃ u, exec c s = .next (settle (freed s) u) ∧ u.intake.readAbandoned = false
      ∧ u.intake.faultReason = s.intake.faultReason ∧ u.port.faultPending = s.port.faultPending ∧ u.intake.target = s.intake.target
      ∧ u.intake.expected = s.intake.expected
      ∧ (s.engine.state = .running → SameWalk s u ∧ IntakeOnly (freed s) u ∧ (s.intake.nudgePending = false → Watches u)
          ∧ (s.intake.nudgePending = true → Reads .tally u))
      ∧ (s.engine.state = .draining → Off u
          ∧ (occupied s = 0 ∧ s.channel.queue.any Request.isReport = false → u.engine.state = .disabled ∧ u.port.drainedPending = true)
          ∧ (¬(occupied s = 0 ∧ s.channel.queue.any Request.isReport = false) → u.engine = s.engine ∧ SameWalk s u))

/-- POLL_TIMER_EXPIRY, STALLED_POOL_END and STALLED_PAGES_END: the intake goes to READING at the poll timer's expiry in WATCH, once a slot is free, or once a record has gone (R28, R42, R43). An expiry and a NUDGE that fall together give one tally read in either order (R30): the read of the expiry is issued at its own event (R186), but where an acting NUDGE is the next command waiting, the two falling together, at that of the NUDGE (log 29). Outside WATCH or with the timer stopped the expiry changes nothing (logs 2 and 9), and a stall command whose stall has not ended only lets the arbiter issue (log 22). `stalledPoolTest` and `stalledPagesTest`, which the statements of ESTATE and release completions name, are what the two commands do before the arbiter. -/
def Obligations.WaitingIntakeGoesOnReading : Prop :=
  (∀ s : State, s.intake.state ≠ .watch ∨ s.intake.pollTimer = none → exec .pollTimerExpiry s = .next s)
  ∧ (∀ s : State, s.intake.state = .watch → s.intake.pollTimer.isSome = true → ∃ u,
    ((∃ v rest, s.pending = .nudge v :: rest) ∧ s.engine.state = .running ∧ s.port.resetHeld = false → exec .pollTimerExpiry s = .next u)
    ∧ (¬((∃ v rest, s.pending = .nudge v :: rest) ∧ s.engine.state = .running ∧ s.port.resetHeld = false) →
        exec .pollTimerExpiry s = .next (issueAccess u))
    ∧ u.channel = { s.channel with queue := s.channel.queue ++ [.intakeRead .tally] } ∧ Reads .tally u ∧ IntakeOnly s u ∧ SameWalk s u ∧ u.port = s.port ∧ u.reporting = s.reporting
    ∧ u.intake.nudgePending = s.intake.nudgePending ∧ u.intake.target = s.intake.target)
  ∧ (∀ s : State, s.intake.state = .stalledPool → (∃ i, slotOrder s i = none) → ∃ u, exec .stalledPoolEnd s = .next (issueAccess u)
    ∧ u = stalledPoolTest s ∧ Reads .entry u ∧ IntakeOnly s u ∧ SameWalk s u ∧ u.port = s.port ∧ u.reporting = s.reporting
    ∧ u.intake.nudgePending = s.intake.nudgePending)
  ∧ (∀ s : State, s.intake.state = .stalledPages → s.intake.records.length < 4 → ∃ u, exec .stalledPagesEnd s = .next (issueAccess u)
    ∧ u = stalledPagesTest s ∧ (s.intake.pageEntered = true → Reads .next u)
    ∧ (s.intake.pageEntered = false → Reads .header u ∧ u.intake.candidate = s.intake.currentPage)
    ∧ IntakeOnly s u ∧ SameWalk s u ∧ u.port = s.port ∧ u.reporting = s.reporting ∧ u.intake.nudgePending = s.intake.nudgePending)
  ∧ (∀ s : State, (s.intake.state ≠ .stalledPool ∨ ∀ i, slotOrder s i ≠ none) → exec .stalledPoolEnd s = .next (issueAccess s)
    ∧ stalledPoolTest s = s)
  ∧ (∀ s : State, (s.intake.state ≠ .stalledPages ∨ 4 ≤ s.intake.records.length) → exec .stalledPagesEnd s = .next (issueAccess s)
    ∧ stalledPagesTest s = s)
  ∧ ∀ (s : State) (v : Word) (rest : List Instr), s.port.resetHeld = false → s.engine.state = .running → s.intake.state = .watch →
    s.intake.pollTimer.isSome = true → s.channel.queue = [] → s.channel.outstanding = none →
    ∃ a b x y z, step { s with pending := .pollTimerExpiry :: .nudge v :: rest } = .next a ∧ step a = .next x
    ∧ step { s with pending := .nudge v :: .pollTimerExpiry :: rest } = .next b ∧ step b = .next y
    ∧ step { s with pending := .pollTimerExpiry :: .accessIssue :: rest } = .next z
    ∧ ∀ t ∈ [x, y, z], t.channel.queue = [] ∧ Awaits t s.channel.nextTag (.intakeRead .tally) ∧ t.intake.state = .reading
        ∧ t.intake.nudgePending = false

/-! ## Reporting -/

/-- RESULT_WRITE_COMPLETE: the order's ESTATE write joins the queue (R12). HEADER_UPDATE_COMPLETE: NOTIFY pending is set if the update carried notify, and nothing else changes (R17, R18), unless a draining engine is done (R191). -/
def Obligations.ReportWritesComplete : Prop :=
  (∀ (s : State) (tag : Nat) (i : SlotId), Awaits s tag (.result i) →
    exec (.resultWriteComplete tag) s = .next (settle (freed s)
      { s with channel := { s.channel with queue := s.channel.queue ++ [.estate i], outstanding := none } }))
  ∧ ∀ (s : State) (tag : Nat) (a : Access), s.channel.outstanding = some a → a.tag = tag → a.request = .headerUpdate →
    ∃ u, exec (.headerUpdateComplete tag) s = .next (settle (freed s) u)
    ∧ u.port.notifyPending = (s.port.notifyPending || a.carriesNotify)
    ∧ (¬(s.engine.state = .draining ∧ occupied s = 0 ∧ s.channel.queue.any Request.isReport = false) →
        u = { freed s with port := { s.port with notifyPending := u.port.notifyPending } })
    ∧ (s.engine.state = .draining ∧ occupied s = 0 ∧ s.channel.queue.any Request.isReport = false →
        u = { freed s with
          port := { s.port with notifyPending := u.port.notifyPending, drainedPending := true }
          engine := { s.engine with state := .disabled }
          pool := { s.pool with cancelList := [] }
          intake := { s.intake with records := [] } })

/-- ESTATE_WRITE_COMPLETE (R14, R57, R52): the order leaves the pool and its lane entry, the oldest-open sequence is computed anew (EntryReadTakesTheOrder says what it is); the lane's next head is promoted, the release condition, MARKs, a STALLED_POOL wait and the drain are tested. That the head's start test comes before those of the entries already WAITING, which `settle` makes, is the model's choice (log 33). That the release test (R14) comes before the MARK tests (R57), and so a release write joins the queue before a MARK's result write, is the model's choice (log 34); the rest stands as the two rules list it (log 5). The slot finds its page record by serial, the model's own (log 16). PromotionAdmitsTheHead says what `promote` is, PagesAreReleasedInOrder `releaseTest`, MarksAndStoppedOrdersReport `markTests`, WaitingIntakeGoesOnReading `stalledPoolTest`, DisableDrainsTheEngine `drainedTest`. -/
def Obligations.EstateWriteEndsTheOrder : Prop :=
  ∀ (s : State) (tag : Nat) (i : SlotId) (o : PoolOrder), Awaits s tag (.estate i) → slotOrder s i = some o →
    ∃ v, exec (.estateWriteComplete tag) s = .next (settle (freed s) (drainedTest (stalledPoolTest (markTests (releaseTest
          (promote o.entry.lane v))))))
    ∧ v.pool = { s.pool with slots := s.pool.slots.set i none, finished := s.pool.finished + 1, oldestOpen := v.pool.oldestOpen }
    ∧ v.pool.oldestOpen = computeOldest v.pool
    ∧ v.table = s.table.set o.entry.lane none
    ∧ v.intake = { s.intake with records := v.intake.records }
    ∧ v.intake.records = s.intake.records.map (fun p => if p.serial = o.pageSerial then { p with finishedCount := p.finishedCount + 1 } else p)
    ∧ v.reporting.notifyOwed = (s.reporting.notifyOwed || o.entry.word0.getLsbD 10) ∧ HeaderAsked v
    ∧ v.channel.outstanding = none ∧ (∀ r ∈ s.channel.queue, r ∈ v.channel.queue)
    ∧ SamePort s v ∧ v.strokes = s.strokes ∧ SameArraySide s v ∧ v.arrayMode = s.arrayMode

/-- RELEASE_REQUEST: the release write of the oldest record joins the queue once its page was left and all its orders are finished, none in progress (R19). RELEASE_WRITE_COMPLETE: the record goes, RELEASED counts, and the condition is tested again (R20). `releaseTest` is what RELEASE_REQUEST does before the arbiter. -/
def Obligations.PagesAreReleasedInOrder : Prop :=
  (∀ (s : State) (p : PageRecord) (rest : List PageRecord), s.intake.records = p :: rest →
    (engineLive s = true ∧ s.reporting.releaseInProgress = false ∧ p.left = true ∧ p.finishedCount = p.takenCount →
      exec .releaseRequest s = .next (issueAccess (releaseTest s))
      ∧ releaseTest s = { s with
        channel := { s.channel with queue := s.channel.queue ++ [.release] }, reporting := { s.reporting with releaseInProgress := true } })
    ∧ (¬(engineLive s = true ∧ s.reporting.releaseInProgress = false ∧ p.left = true ∧ p.finishedCount = p.takenCount) →
      exec .releaseRequest s = .next (issueAccess s) ∧ releaseTest s = s))
  ∧ (∀ s : State, s.intake.records = [] → exec .releaseRequest s = .next (issueAccess s) ∧ releaseTest s = s)
  ∧ ∀ (s : State) (tag : Nat), Awaits s tag .release →
    ∃ v, exec (.releaseWriteComplete tag) s = .next (settle (freed s) (drainedTest (stalledPagesTest (releaseTest v))))
    ∧ v.intake = { s.intake with records := s.intake.records.tail }
    ∧ v.reporting.releaseInProgress = false ∧ v.reporting.released = s.reporting.released + 1
    ∧ v.reporting.notifyOwed = s.reporting.notifyOwed ∧ HeaderAsked v ∧ v.channel.outstanding = none
    ∧ (∀ r ∈ s.channel.queue, r ∈ v.channel.queue)
    ∧ SamePort s v ∧ SameOrders s v ∧ SameArraySide s v ∧ v.arrayMode = s.arrayMode

/-! ## Admission and the interlock -/

/-- PROMOTION (R54, R55, R71, R73, R58): the head of a lane queue enters the lane's EMPTY entry while the engine is RUNNING or DRAINING. A cancel-marked head reports CANCELLED, a failed static check reports BAD_ORDER with its REASON, a MARK waits EARLIER or finishes, every other order makes its start test. `promote`, which the statements of the take and of the ESTATE completion name, is what PROMOTION does before what follows at the event. -/
def Obligations.PromotionAdmitsTheHead : Prop :=
  (∀ (s : State) (l : Lane), (laneEntry s l ≠ none ∨ s.pool.queues[l] = [] ∨ engineLive s = false) →
    exec (.promotion l) s = .next (settle s s) ∧ promote l s = s)
  ∧ (∀ (s : State) (l : Lane), exec (.promotion l) s = .next (settle s (promote l s)))
  ∧ ∀ (s : State) (l : Lane) (i : SlotId) (rest : List SlotId) (o : PoolOrder), laneEntry s l = none →
    s.pool.queues[l] = i :: rest → slotOrder s i = some o → engineLive s = true →
    ∃ u, exec (.promotion l) s = .next (settle s u) ∧ u = promote l s
    ∧ u.port = s.port ∧ u.engine = s.engine ∧ u.intake = s.intake ∧ u.pool.queues = s.pool.queues.set l rest
    ∧ u.pool.taken = s.pool.taken ∧ u.pool.finished = s.pool.finished ∧ u.pool.oldestOpen = s.pool.oldestOpen
    ∧ (o.cancelMark = true → Reports u i o .cancelled 0 0 0
        ∧ laneEntry u l = some { slot := i, wait := none, footprint := none, started := false } ∧ SameArraySide s u)
    ∧ (∀ reason, o.cancelMark = false → staticCheck o.entry = some reason → Reports u i o .badOrder reason 0 0
        ∧ laneEntry u l = some { slot := i, wait := none, footprint := none, started := false } ∧ SameArraySide s u)
    ∧ (o.cancelMark = false → staticCheck o.entry = none → o.kind = some .mark → s.pool.oldestOpen = o.seq →
        Reports u i o .ok 0 0 0 ∧ SameArraySide s u)
    ∧ (o.cancelMark = false → staticCheck o.entry = none → o.kind = some .mark → s.pool.oldestOpen ≠ o.seq →
        slotOrder u i = some { o with life := .waiting } ∧ SameArraySide s u
        ∧ laneEntry u l = some { slot := i, wait := some .earlier, footprint := some (footprintOf o.entry .mark), started := false })
    ∧ (∀ k, o.cancelMark = false → staticCheck o.entry = none → o.kind = some k → k ≠ .mark →
        u = runStartTest l { s with
          pool := { s.pool with queues := s.pool.queues.set l rest, slots := s.pool.slots.set i (some { o with life := .waiting }) }
          table := s.table.set l (some { slot := i, wait := none, footprint := some (footprintOf o.entry k), started := false }) })

/-- The static checks in the order of their REASON numbers, on the fields of the entry as numbers (R72). -/
def Obligations.StaticChecksGiveTheReason : Prop :=
  ∀ e : EntryWords,
    let kind := e.word0.toNat % 256
    let data := 1 ≤ kind ∧ kind ≤ 5
    let host := e.word2.toNat
    let array := e.word3.toNat
    let length := e.word4.toNat
    let aux := e.word5.toNat
    staticCheck e =
      if kind = 0 ∨ 8 < kind then some 1
      else if e.word0.toNat / 2048 % 8192 ≠ 0 then some 2
      else if data ∧ (array % 64 ≠ 0 ∨ length % 64 ≠ 0 ∨ (kind = 3 ∧ aux % 64 ≠ 0)) then some 3
      else if data ∧ (length < 64 ∨ 16777216 < length) then some 4
      else if data ∧ (268435456 < array + length ∨ (kind = 3 ∧ 268435456 < aux + length)) then some 5
      else if (kind = 1 ∨ kind = 2) ∧ (host % 8 ≠ 0 ∨ 4294967296 < host + length) then some 6
      else if kind = 3 ∧ array < aux + length ∧ aux < array + length then some 7
      else if kind = 6 ∧ (aux % 256 = 0 ∨ aux / 256 % 256 = 0 ∨ aux / 131072 ≠ 0) then some 8
      else if kind = 7 ∧ (aux / 4 % 64 ≠ 0 ∨ aux / 512 ≠ 0) then some 9
      else none

/-- When two orders conflict (R76): two data orders where an interval of one shares an address with an interval of the other and one of the two is write; with a RETAIN or POWER where they share a region; a MARK and an absent footprint never. -/
def Obligations.FootprintsConflictWhereOneWrites : Prop :=
  (∀ f g : Footprint, f.whole = false → g.whole = false → (f.conflicts g = true ↔
    ∃ x ∈ f.intervals, ∃ y ∈ g.intervals, (∃ a, x.base ≤ a ∧ a < x.base + x.length ∧ y.base ≤ a ∧ a < y.base + y.length)
      ∧ (x.write = true ∨ y.write = true)))
  ∧ (∀ f g : Footprint, (f.whole = true ∨ g.whole = true) → (f.conflicts g = true ↔ ∃ r, r ∈ f.regions ∧ r ∈ g.regions))
  ∧ (∀ e k, (footprintOf e k).whole = true ↔ k = .retain ∨ k = .power)
  ∧ (∀ e d, (footprintOf e .fetch).conflicts (footprintOf d .fetch) = false)
  ∧ (∀ e g, (footprintOf e .mark).conflicts g = false ∧ g.conflicts (footprintOf e .mark) = false)
  ∧ ∀ s l x f m e, laneEntry s m = some e → e.footprint = none → holdsBack s l x f m = false

/-- The footprint of each kind (R74) and the region set of an interval inside the array (R75): the regions that hold one of its bytes, in ascending order. -/
def Obligations.FootprintsAndRegionSets : Prop :=
  (∀ a len r, a + len ≤ 268435456 → (touchesRegion a len r = true ↔ ∃ x, a ≤ x ∧ x < a + len ∧ addrRegion x = r))
  ∧ (∀ e k, (footprintOf e k).regions.Pairwise fun p q => p.val < q.val)
  ∧ ∀ e : EntryWords,
    let source (w : Bool) : ArrayInterval := { base := e.word3.toNat, length := e.word4.toNat, write := w }
    let target : ArrayInterval := { base := e.word5.toNat, length := e.word4.toNat, write := true }
    (footprintOf e .load).intervals = [source true] ∧ (footprintOf e .fetch).intervals = [source false]
    ∧ (footprintOf e .copy).intervals = [source false, target] ∧ (footprintOf e .fill).intervals = [source true]
    ∧ (footprintOf e .scrub).intervals = [source true] ∧ (footprintOf e .retain).intervals = []
    ∧ (footprintOf e .power).intervals = [] ∧ (footprintOf e .mark).intervals = [] ∧ (footprintOf e .mark).regions = []
    ∧ (∀ k r, k.isData = true → (r ∈ (footprintOf e k).regions ↔
        ∃ iv ∈ (footprintOf e k).intervals, touchesRegion iv.base iv.length r = true))
    ∧ (∀ r : RegionId, r ∈ (footprintOf e .retain).regions ↔
        e.word5.getLsbD (r.val / 8) = true ∧ e.word5.getLsbD (8 + r.val % 8) = true)
    ∧ ∀ r : RegionId, r ∈ (footprintOf e .power).regions ↔ r.val / 16 = e.word5.toNat % 4

/-- START_TEST of a WAITING order that may not start (R77, R79, R80, R176): the interlock leaves it waiting INTERLOCK; the first region, ascending, in a state its kind does not allow reports its outcome; an array not in RUN leaves it waiting ARRAY, and an ASLEEP array starts to wake. An entry that makes no start test is left as it is. `interlockFails`, which StartTestStartsTheOrder names, is the interlock of R77. -/
def Obligations.StartTestRefusesOrWaits : Prop :=
  (∀ (s : State) (l : Lane), (∀ o, laneOrder s l = some o → o.life ≠ .waiting ∨ o.kind = some .mark ∨ s.engine.state = .halted) →
    exec (.startTest l) s = .next (settle s s) ∧ runStartTest l s = s)
  ∧ (∀ (s : State) (l : Lane) (o : PoolOrder) (f : Footprint), interlockFails s l o f = false ↔
      ∀ m d y g, m ≠ l → laneEntry s m = some d → laneOrder s m = some y → d.footprint = some g → g.conflicts f = true →
        seqBefore y.seq o.seq = false ∧ y.life ≠ .running ∧ y.life ≠ .stopping)
  ∧ ∀ (s : State) (l : Lane) (e : TableEntry) (o : PoolOrder) (f : Footprint) (k : OrderKind),
    laneEntry s l = some e → slotOrder s e.slot = some o → e.footprint = some f → o.kind = some k → o.life = .waiting →
    e.started = false → k ≠ .mark → s.engine.state ≠ .halted →
    ((∃ m d y g, m ≠ l ∧ laneEntry s m = some d ∧ laneOrder s m = some y ∧ d.footprint = some g ∧ g.conflicts f = true
        ∧ (seqBefore y.seq o.seq = true ∨ y.life = .running ∨ y.life = .stopping)) →
      runStartTest l s = { s with table := s.table.set l (some { e with wait := some .interlock }) }
        ∧ exec (.startTest l) s = .next (settle s { s with table := s.table.set l (some { e with wait := some .interlock }) }))
    ∧ ((∀ m d y g, m ≠ l → laneEntry s m = some d → laneOrder s m = some y → d.footprint = some g → g.conflicts f = true →
          seqBefore y.seq o.seq = false ∧ y.life ≠ .running ∧ y.life ≠ .stopping) →
      (∀ allowed r others c, f.regions = allowed ++ r :: others → (∀ x ∈ allowed, startState k (regionState s x) = none) →
        startState k (regionState s r) = some c →
        ∃ u, exec (.startTest l) s = .next (settle s u) ∧ u = runStartTest l s ∧ Reports u e.slot o c 0 0 0
        ∧ laneEntry u l = some { e with wait := none, footprint := none }
        ∧ SamePort s u ∧ u.intake = s.intake ∧ u.reporting = s.reporting ∧ SameArraySide s u ∧ u.arrayMode = s.arrayMode
        ∧ (∀ m, m ≠ l → laneEntry u m = laneEntry s m) ∧ ∀ j, j ≠ e.slot → slotOrder u j = slotOrder s j)
      ∧ ((∀ x ∈ f.regions, startState k (regionState s x) = none) → s.arrayMode.mode ≠ .run →
        ∃ u, exec (.startTest l) s = .next (settle s u) ∧ u = runStartTest l s
        ∧ u.table = s.table.set l (some { e with wait := some .array }) ∧ u.pool = s.pool ∧ u.strokes = s.strokes
        ∧ SamePort s u ∧ u.intake = s.intake ∧ SameArraySide s u
        ∧ (s.arrayMode.mode = .asleep → u.arrayMode = { s.arrayMode with mode := .waking, wakeTimer := some 150 } ∧ HeaderAsked u)
        ∧ (s.arrayMode.mode ≠ .asleep → u.arrayMode = s.arrayMode)))

/-- The states the start-time checks allow and what they answer otherwise (R79), and START_TEST of an order that passes in RUN: it is RUNNING with its started flag set (R80) and handed on by its kind (R82, R92, R154, R155, R167). -/
def Obligations.StartTestStartsTheOrder : Prop :=
  (∀ k, k.isData = true → startState k .kept = none ∧ startState k .off = some .domainOff ∧ startState k .lost = some .regionLost
    ∧ startState k .dropped = some .regionDropped ∧ startState k .arming = some .regionDropped)
  ∧ (startState .retain .off = some .domainOff ∧ ∀ st, st ≠ .off → startState .retain st = none)
  ∧ (∀ st, startState .power st = none)
  ∧ ∀ (s : State) (l : Lane) (e : TableEntry) (o : PoolOrder) (f : Footprint) (k : OrderKind),
    laneEntry s l = some e → slotOrder s e.slot = some o → e.footprint = some f → o.kind = some k → o.life = .waiting →
    k ≠ .mark → s.engine.state ≠ .halted → interlockFails s l o f = false →
    (∀ x ∈ f.regions, startState k (regionState s x) = none) → s.arrayMode.mode = .run →
    ∃ u, exec (.startTest l) s = .next (settle s u) ∧ u = runStartTest l s
    ∧ laneEntry u l = some { e with wait := none, started := true } ∧ SamePort s u ∧ u.intake = s.intake
    ∧ (k.isData = true → ∃ w, u = issueMore l w
        ∧ w = { s with pool := w.pool, table := w.table, strokes := w.strokes }
        ∧ slotOrder w e.slot = some { o with life := .running }
        ∧ w.strokes = { s.strokes with generators := s.strokes.generators.set l (some
            { nextStroke := 0, strokeCount := o.entry.word4.toNat / 64, issuing := true, prefixLen := 0, ahead := [],
              barrier := none, armingList := [] }) })
    ∧ (k = .retain → o.entry.keep = false → Reports u e.slot o .ok 0 0 0
        ∧ (∀ r : RegionId, u.regions[r] = if r ∈ f.regions ∧ (s.regions[r].state = .kept ∨ s.regions[r].state = .lost)
            then { state := .dropped, owner := none, sweep := 0 } else s.regions[r])
        ∧ ((∃ r ∈ f.regions, s.regions[r].state = .lost) → HeaderAsked u)
        ∧ ∀ b : BankId, HandedK s b (retainedCount u b) u.refresh.banks[b])
    ∧ (k = .retain → o.entry.keep = true → (∀ r ∈ f.regions, s.regions[r].state ≠ .dropped ∧ s.regions[r].state ≠ .lost) →
        Reports u e.slot o .ok 0 0 0 ∧ SameArraySide s u)
    ∧ (k = .retain → o.entry.keep = true → (∃ r ∈ f.regions, s.regions[r].state = .dropped ∨ s.regions[r].state = .lost) →
        ∃ w list, u = issueMore l w ∧ list = f.regions.filter (fun r => s.regions[r].state == .dropped || s.regions[r].state == .lost)
        ∧ slotOrder w e.slot = some { o with life := .running }
        ∧ w.strokes.generators[l] = some
            { nextStroke := 0, strokeCount := 65536 * list.length, issuing := true, prefixLen := 0, ahead := [],
              barrier := none, armingList := list }
        ∧ (∀ r : RegionId, w.regions[r] = if r ∈ list then { state := .arming, owner := some { lane := l, seq := o.seq }, sweep := 0 }
            else s.regions[r])
        ∧ (∀ b : BankId, HandedK s b (retainedCount w b) w.refresh.banks[b])
        ∧ ((∃ r ∈ list, s.regions[r].state = .lost) → HeaderAsked w))
    ∧ (k = .power → s.domains.states[o.entry.domain] = (if o.entry.powerOn then .on else .off) →
        Reports u e.slot o .ok 0 0 0 ∧ SameArraySide s u)
    ∧ (k = .power → s.domains.states[o.entry.domain] ≠ (if o.entry.powerOn then .on else .off) →
        ∃ w, u = switchTakes w ∧ slotOrder w e.slot = some { o with life := .running }
        ∧ w.domains = { s.domains with requests := s.domains.requests ++
            [{ domain := o.entry.domain, on := o.entry.powerOn, order := { lane := l, seq := o.seq } }] })

/-- MARK_FINISH: a MARK waiting EARLIER reports OK once the oldest-open sequence is its own (R58). STOPPING_END: a STOPPING order with a recorded cause and nothing in flight reports that cause with the CORRECTED and DONE it holds (R85). `markTests`, which the ESTATE completion makes, tests lanes 0 to 3 in turn, each as MARK_FINISH does; the ascending order is log 5. What counts as in flight (R85, R168). -/
def Obligations.MarksAndStoppedOrdersReport : Prop :=
  (∀ (s : State) (l : Lane) (e : TableEntry) (o : PoolOrder), laneEntry s l = some e → slotOrder s e.slot = some o →
    o.kind = some .mark → o.life = .waiting → e.wait = some .earlier → s.engine.state ≠ .halted →
    (s.pool.oldestOpen ≠ o.seq → exec (.markFinish l) s = .next (settle s s) ∧ markTest l s = s)
    ∧ (s.pool.oldestOpen = o.seq → ∃ u, exec (.markFinish l) s = .next (settle s u) ∧ u = markTest l s ∧ Reports u e.slot o .ok 0 0 0
        ∧ SamePort s u ∧ u.intake = s.intake ∧ u.reporting = s.reporting ∧ SameArraySide s u ∧ u.arrayMode = s.arrayMode
        ∧ (∀ j, j ≠ e.slot → slotOrder u j = slotOrder s j) ∧ ∀ m, m ≠ l → laneEntry u m = laneEntry s m))
  ∧ (∀ (s : State) (l : Lane), (∀ e o, laneEntry s l = some e → slotOrder s e.slot = some o →
      o.kind ≠ some .mark ∨ o.life ≠ .waiting ∨ e.wait ≠ some .earlier ∨ s.engine.state = .halted) →
      exec (.markFinish l) s = .next (settle s s) ∧ markTest l s = s)
  ∧ (∀ (s : State) (l : Lane), exec (.stoppingEnd l) s = .next (settle s (endTest l s)))
  ∧ (∀ s : State, (∀ l, exec (.markFinish l) s = .next (settle s (markTest l s)))
      ∧ markTests s = [0, 1, 2, 3].foldl (fun t l => markTest l t) s)
  ∧ (∀ (s : State) (l : Lane) (n : OrderName),
      (laneInFlight s l = true ↔ inFlight s l ≠ 0 ∨ ∃ o, laneOrder s l = some o ∧ rampOf s { lane := l, seq := o.seq } = true)
      ∧ inFlight s l = s.strokes.records.countP (fun r => r.id.lane = l)
      ∧ (rampOf s n = true ↔ ∃ v, s.domains.serving = some v ∧ v.owner = some n))
  ∧ ∀ (s : State) (l : Lane) (e : TableEntry) (o : PoolOrder), laneEntry s l = some e → slotOrder s e.slot = some o →
    o.life = .stopping →
    ((s.engine.state = .halted ∨ o.stopCause = none ∨ laneInFlight s l = true) → exec (.stoppingEnd l) s = .next (settle s s))
    ∧ (∀ c, s.engine.state ≠ .halted → o.stopCause = some c → laneInFlight s l = false →
        ∃ u, exec (.stoppingEnd l) s = .next (settle s u) ∧ Reports u e.slot o c.outcome 0 o.corrected o.done
        ∧ u.strokes.generators[l] = none ∧ SamePort s u ∧ u.intake = s.intake ∧ u.reporting = s.reporting
        ∧ SameArraySide s u ∧ u.arrayMode = s.arrayMode
        ∧ (∀ j, j ≠ e.slot → slotOrder u j = slotOrder s j) ∧ ∀ m, m ≠ l → laneEntry u m = laneEntry s m)

/-! ## Strokes -/

/-- The array address map (R90), with the numbers of regions, banks and domains (R150, R166). -/
def Obligations.AddressMapPlacesEveryByte : Prop :=
  (∀ (b : BankId) (g : Fin 8) (r : RegionId) (d : DomainId), (regionOf b g).val = b.val * 8 + g.val
    ∧ (regionBank r).val = r.val / 8 ∧ (bankDomain b).val = b.val / 2 ∧ (regionDomain r).val = r.val / 16
    ∧ (lowerBank d).val = 2 * d.val ∧ (upperBank d).val = 2 * d.val + 1)
  ∧ ∀ a, a < 268435456 →
    (addrBank a).val = a / 2048 % 8 ∧ (addrRow a).toNat = a / 16384 ∧ (addrColumn a).toNat = a % 2048 / 64
    ∧ (addrSegment a).val = a / 33554432 ∧ (addrSegment a).val = (addrRow a).toNat / 2048
    ∧ (addrRegion a).val = (addrBank a).val * 8 + (addrSegment a).val
    ∧ placeAddress (addrBank a) (addrRow a) (addrColumn a) = a - a % 64
    ∧ ∀ j, j < 64 → a % 64 = 0 → addrBank (a + j) = addrBank a ∧ addrRow (a + j) = addrRow a
        ∧ addrColumn (a + j) = addrColumn a ∧ addrRegion (a + j) = addrRegion a

/-- STROKE_ISSUE (R93, R94, R95, R98, R126): a lane whose issue test holds checks the regions of its next stroke. A region in the wrong state stops the order; else the record is made and the first step placed: a LOAD's host read joins the master channel's queue, every other kind's request the pending set of its bank. A buffer kind issues only as the allocator's next wanter, with a free buffer. That STROKE_ISSUE as a command of its own issues one stroke, a buffer kind at the allocator's turn, is log 22; that it takes the lowest free buffer is log 10. What `joinBank` does: the request joins the pending set last, then the bank's arbiter decides (R116, R118, log 7). What `toStopping` does to a RUNNING order (R84, R85, R158). What `placeRequest` does (R185). -/
def Obligations.StrokeIssueChecksAndPlaces : Prop :=
  (∀ (v : State) (b : BankId) (q : BankRequest), exec (.bankArbiterDecision b) { v with
      banks := v.banks.set b { v.banks[b] with requests := v.banks[b].requests ++ [q] } } = .next (joinBank b q v))
  ∧ (∀ (v : State) (r : Request), placeRequest r v = { v with channel := { v.channel with queue := v.channel.queue ++ [r] } })
  ∧ ([StrokeKind.load, .fetch, .copy, .fill, .scrub, .arming].map firstPhase =
        [.hostReading, .arrayReading, .arrayReading, .arrayWriting, .scrubbing, .arrayWriting]
    ∧ [OrderKind.load, .fetch, .copy, .fill, .scrub, .retain, .power, .mark].map strokeKindOf =
        [some .load, some .fetch, some .copy, some .fill, some .scrub, some .arming, none, none])
  ∧ (∀ (s : State) (l : Lane) (c : Option StopCause) (e : TableEntry) (o : PoolOrder),
    laneEntry s l = some e → slotOrder s e.slot = some o →
    (o.life ≠ .running → toStopping l c s = s)
    ∧ (o.life = .running → ∀ u, u = toStopping l c s →
        ((c = none ∨ s.engine.state = .halted ∨ laneInFlight s l = true) →
          slotOrder u e.slot = some { o with life := .stopping, stopCause := c }
          ∧ ∀ g, u.strokes.generators[l] = some g → g.issuing = false)
        ∧ (∀ d, c = some d → s.engine.state ≠ .halted → laneInFlight s l = false →
          slotOrder u e.slot = some { o with life := .reporting, stopCause := c, outcome := some d.outcome, reason := 0 }
          ∧ .result e.slot ∈ u.channel.queue ∧ u.strokes.generators[l] = none)
        ∧ (∀ r : RegionId, u.regions[r] =
            if s.regions[r].state = .arming ∧ s.regions[r].owner = some { lane := l, seq := o.seq } then
              { state := .dropped, owner := none, sweep := 0 } else s.regions[r])
        ∧ SamePort s u ∧ u.intake = s.intake ∧ u.domains = s.domains ∧ u.strokes.records = s.strokes.records
        ∧ u.strokes.buffers = s.strokes.buffers ∧ u.array = s.array ∧ ∀ j, j ≠ e.slot → slotOrder u j = slotOrder s j))
  ∧ ∀ (s : State) (l : Lane) (o : PoolOrder) (g : Generator) (k : StrokeKind) (buffer : Option BufferId),
    laneOrder s l = some o → s.strokes.generators[l] = some g → o.kind.bind strokeKindOf = some k →
    g.issuing = true → g.nextStroke < g.strokeCount → inFlight s l < 4 → s.engine.state ≠ .halted → sweepReady o g = true →
    ((k = .fill ∨ k = .arming) ∧ buffer = none ∨ k ≠ .fill ∧ k ≠ .arming ∧ freeBuffer s = buffer ∧ buffer ≠ none ∧ nextWanter s = some l) →
    ∀ r, r = { id := { lane := l, seq := o.seq, index := g.nextStroke }, kind := k,
               place := strokePlace o.entry k g.armingList g.nextStroke, hostPlace := o.entry.word2 + BitVec.ofNat 32 (64 * g.nextStroke),
               destPlace := o.entry.word5.toNat + 64 * g.nextStroke, buffer := buffer, phase := firstPhase k, corrected := 0 } →
    ∀ issued, issued = (match buffer with | none => issueStroke l none s | some b => grantBuffer l b s) →
    exec (.strokeIssue l) s = .next (settle s issued)
    ∧ (∀ x, failedRegion s { lane := l, seq := o.seq } k r.place r.destPlace = some x →
      issued = toStopping l (some (if s.regions[x].state = .lost then .regionLost else .regionDropped)) s)
    ∧ (failedRegion s { lane := l, seq := o.seq } k r.place r.destPlace = none →
      ∃ v, v = { s with strokes := v.strokes }
      ∧ v.strokes.records = s.strokes.records ++ [r]
      ∧ v.strokes.generators = s.strokes.generators.set l (some { g with nextStroke := g.nextStroke + 1 })
      ∧ (buffer = none → v.strokes.buffers = s.strokes.buffers ∧ v.strokes.lastGranted = s.strokes.lastGranted)
      ∧ (∀ b, buffer = some b → v.strokes.buffers = s.strokes.buffers.set b (some { holder := r.id, data := none })
          ∧ v.strokes.lastGranted = l)
      ∧ (k = .load → issued = placeRequest (.hostRead r.id) v)
      ∧ (k ≠ .load → s.banks[addrBank r.place].state ≠ .unpowered →
          issued = joinBank (addrBank r.place)
            { seq := o.seq, row := addrRow r.place, column := addrColumn r.place, stroke := some r.id,
              kind := match k with
                | .load | .fetch | .copy => .read
                | .scrub => .scrub
                | .fill => .write (fillLine o.entry.word5)
                | .arming => .write zeroLine } v)
      ∧ (k ≠ .load → s.banks[addrBank r.place].state = .unpowered →
          issued = endTest l (strokeFails r .regionDropped v)))

/-- Where strokes lie (R91, R156), what a FILL and an arming stroke write (R105, R96), and which region stops an issue (R94). -/
def Obligations.StrokePlacesAndChecks : Prop :=
  (∀ e k list i, k ≠ .arming → strokePlace e k list i = e.word3.toNat + 64 * i)
  ∧ (∀ e list i (r : RegionId), list[i / 65536]? = some r → strokePlace e .arming list i =
      (r.val % 8 * 2048 + i % 65536 / 32) * 16384 + r.val / 8 * 2048 + i % 65536 % 32 * 64
      ∧ addrRegion (strokePlace e .arming list i) = r)
  ∧ (∀ (w : Word) (j : Fin 64), (fillLine w)[j] = w.extractLsb' (8 * (j.val % 4)) 8) ∧ (∀ j : Fin 64, zeroLine[j] = 0)
  ∧ (∀ s n k place dest, k = .load ∨ k = .fetch ∨ k = .fill ∨ k = .scrub → failedRegion s n k place dest =
      if s.regions[addrRegion place].state = .kept then none else some (addrRegion place))
  ∧ (∀ s n place dest, failedRegion s n .arming place dest =
      if s.regions[addrRegion place].state = .arming ∧ s.regions[addrRegion place].owner = some n then none
      else some (addrRegion place))
  ∧ ∀ s n place dest x, failedRegion s n .copy place dest = some x ↔
      (x = addrRegion place ∨ x = addrRegion dest) ∧ s.regions[x].state ≠ .kept
      ∧ ∀ y, y = addrRegion place ∨ y = addrRegion dest → s.regions[y].state ≠ .kept → x.val ≤ y.val

/-- BUFFER_GRANT (R98): with no free buffer or no wanter nothing is granted; otherwise the first wanter after the last-granted lane gets a buffer, as its STROKE_ISSUE does, and the grants go on while a buffer is free and a wanter remains. `issueMore`, the issue that follows a start or a stroke's end (R93): strokes issue one after another, each the generator's next, until four are in flight, no stroke or buffer remains, or a sweep waits (R156); in states whose orders are placed and whose generators run (OrdersPlaced, GeneratorsRun) it ends only there. -/
def Obligations.BuffersGoRoundRobin : Prop :=
  (∀ s : State, (∀ b : BufferId, s.strokes.buffers[b] ≠ none) ∨ (∀ l, wantsBuffer s l = false) →
    exec .bufferGrant s = .next (settle s s))
  ∧ (∀ (s : State) (l : Lane), nextWanter s = some l → wantsBuffer s l = true
      ∧ ∀ m : Lane, wantsBuffer s m = true → (l - s.strokes.lastGranted - 1).val ≤ (m - s.strokes.lastGranted - 1).val)
  ∧ (∀ (s : State) (b : BufferId) (l : Lane), freeBuffer s = some b → nextWanter s = some l →
      exec .bufferGrant s = .next (settle s (grantBuffers 11 (grantBuffer l b s)))
      ∧ exec (.strokeIssue l) s = .next (settle s (grantBuffer l b s))
      ∧ ((freeBuffer (grantBuffer l b s) = none ∨ nextWanter (grantBuffer l b s) = none) →
          exec .bufferGrant s = .next (settle s (grantBuffer l b s))))
  ∧ (∀ (o : PoolOrder) (g : Generator), sweepReady o g = true ↔ g.armingList = [] ∨ 4194304 * (g.nextStroke / 65536) ≤ o.done)
  ∧ (∀ (s : State) (l : Lane) (o : PoolOrder) (g : Generator) (k : StrokeKind), laneOrder s l = some o →
      s.strokes.generators[l] = some g → o.kind.bind strokeKindOf = some k →
      (issuesAlone s l = true ↔ (k = .fill ∨ k = .arming) ∧ g.issuing = true ∧ g.nextStroke < g.strokeCount ∧ inFlight s l < 4
        ∧ s.engine.state ≠ .halted ∧ sweepReady o g = true)
      ∧ (wantsBuffer s l = true ↔ k ≠ .fill ∧ k ≠ .arming ∧ g.issuing = true ∧ g.nextStroke < g.strokeCount ∧ inFlight s l < 4
        ∧ s.engine.state ≠ .halted ∧ sweepReady o g = true))
  ∧ (∀ (s : State) (l : Lane) (n : Nat), issueMore l s = grantBuffers 12 (issueAlone 4 l s)
      ∧ issueAlone 0 l s = s ∧ (issuesAlone s l = false → issueAlone n l s = s)
      ∧ (issuesAlone s l = true → issueAlone (n + 1) l s = issueAlone n l (issueStroke l none s)
          ∧ exec (.strokeIssue l) s = .next (settle s (issueStroke l none s)))
      ∧ grantBuffers 0 s = s ∧ (freeBuffer s = none ∨ nextWanter s = none → grantBuffers n s = s)
      ∧ ∀ b m, freeBuffer s = some b → nextWanter s = some m → grantBuffers (n + 1) s = grantBuffers n (grantBuffer m b s))
  ∧ ∀ (s : State) (l : Lane), OrdersPlaced s → GeneratorsRun s → issuesAlone (issueMore l s) l = false
      ∧ (freeBuffer (issueMore l s) = none ∨ ∀ m, wantsBuffer (issueMore l s) m = false)

/-- LOAD_HOST_READ_COMPLETE, FETCH_HOST_WRITE_COMPLETE and DATA_ACCESS_FAIL (R101, R102, R106, R126, R188): the 64 bytes read go to the buffer and on to the array as a WRITE; a FETCH completes with its host write; a failed DATA access fails the stroke with HOST_BUS_FAULT. -/
def Obligations.DataAccessesEnd : Prop :=
  (∀ (s : State) (tag : Nat) (i : StrokeId) (r : StrokeRecord) (data : Line), Awaits s tag (.hostRead i) → findStroke s i = some r →
    ∃ v, v = { freed s with strokes := v.strokes }
    ∧ v.strokes.records = s.strokes.records.map (fun x => if x.id = i then { x with phase := .arrayWriting } else x)
    ∧ (∀ b, r.buffer = some b → v.strokes.buffers = s.strokes.buffers.set b (some { holder := r.id, data := some data }))
    ∧ v.strokes.generators = s.strokes.generators ∧ v.strokes.lastGranted = s.strokes.lastGranted
    ∧ (s.banks[addrBank r.place].state ≠ .unpowered → exec (.loadHostReadComplete tag data) s =
        .next (settle (freed s) (joinBank (addrBank r.place)
          { seq := i.seq, row := addrRow r.place, column := addrColumn r.place, kind := .write data, stroke := some i } v)))
    ∧ (s.banks[addrBank r.place].state = .unpowered → exec (.loadHostReadComplete tag data) s =
        .next (settle (freed s) (strokeFailed r .regionDropped v))))
  ∧ (∀ (s : State) (tag : Nat) (i : StrokeId) (r : StrokeRecord), Awaits s tag (.hostWrite i) → findStroke s i = some r →
    exec (.fetchHostWriteComplete tag) s = .next (settle (freed s) (strokeDone r (freed s))))
  ∧ ∀ (s : State) (tag : Nat) (i : StrokeId) (r : StrokeRecord), Awaits s tag (.hostRead i) ∨ Awaits s tag (.hostWrite i) →
    findStroke s i = some r →
    exec (.dataAccessFail tag) s = .next (settle (freed s) (strokeFailed r .hostBusFault (freed s)))

/-- The end of a stroke (R108 to R112, R83 to R85): its record and buffer go; a completion of a data stroke adds its corrected words, saturating, and enters the prefix, DONE being 64 times the prefix; a failure lowers the barrier and stops a RUNNING order with its cause; the issue test, the grants and then the end tests follow, so an order whose last stroke fails reports after what the grants place (R109 5, 6). The end tests report a RUNNING data order whose prefix is its stroke count, and a STOPPING order with a cause and nothing in flight. The prefix passes every stroke that completed ahead and stops at the first that has not. A completed arming stroke (R157): the sweep count of the region ARMING by its order goes up, and at 65,536 the region is KEPT and DONE goes up by 4,194,304, the last region completing the KEEP; for a region in any other state or of another order the report is ignored. -/
def Obligations.StrokeEndsMoveThePrefix : Prop :=
  (∀ (g : Generator) (i : Nat),
    (i = g.prefixLen → i < (enterPrefix i g).prefixLen ∧ (∀ j, i < j → j < (enterPrefix i g).prefixLen → j ∈ g.ahead)
        ∧ (enterPrefix i g).prefixLen ∉ (enterPrefix i g).ahead
        ∧ ∀ j, (enterPrefix i g).prefixLen ≤ j → (j ∈ (enterPrefix i g).ahead ↔ j ∈ g.ahead))
    ∧ (g.prefixLen < i → (∀ b, g.barrier = some b → i < b) → enterPrefix i g = { g with ahead := g.ahead ++ [i] })
    ∧ (∀ b, g.prefixLen < i → g.barrier = some b → b ≤ i → enterPrefix i g = g))
  ∧ (∀ (s : State) (r : StrokeRecord), strokeDone r s = endTests r.id.lane (issueMore r.id.lane (strokeCompletes r s))
      ∧ ∀ c, strokeFailed r c s = endTests r.id.lane (issueMore r.id.lane (strokeFails r c s)))
  ∧ (∀ (s : State) (r : StrokeRecord) (e : TableEntry) (o : PoolOrder) (g : Generator),
    laneEntry s r.id.lane = some e → slotOrder s e.slot = some o → o.seq = r.id.seq →
    s.strokes.generators[r.id.lane] = some g → g.armingList = [] → r.kind ≠ .arming →
    (∀ u, u = strokeCompletes r s →
      u.strokes.records = s.strokes.records.filter (fun x => x.id ≠ r.id)
      ∧ (∀ b, r.buffer = some b → u.strokes.buffers = s.strokes.buffers.set b none)
      ∧ slotOrder u e.slot = some { o with
          corrected := min (o.corrected + r.corrected) 65535, done := 64 * (enterPrefix r.id.index g).prefixLen }
      ∧ u.strokes.generators[r.id.lane] = some (enterPrefix r.id.index g)
      ∧ SamePort s u ∧ u.intake = s.intake ∧ u.channel = s.channel ∧ SameArraySide s u)
    ∧ ∀ c u, u = strokeFails r c s →
      u.strokes.records = s.strokes.records.filter (fun x => x.id ≠ r.id)
      ∧ (∀ b, r.buffer = some b → u.strokes.buffers = s.strokes.buffers.set b none)
      ∧ (o.life = .running →
          slotOrder u e.slot = some { o with life := .stopping, stopCause := some c }
          ∧ ∃ g', u.strokes.generators[r.id.lane] = some g' ∧ g'.issuing = false ∧ g'.prefixLen = g.prefixLen
            ∧ ∃ b, g'.barrier = some b ∧ b ≤ r.id.index ∧ (b = r.id.index ∨ g.barrier = some b))
      ∧ (o.life = .stopping → slotOrder u e.slot = some o
          ∧ ∃ g', u.strokes.generators[r.id.lane] = some g' ∧ g'.prefixLen = g.prefixLen
            ∧ ∃ b, g'.barrier = some b ∧ b ≤ r.id.index ∧ (b = r.id.index ∨ g.barrier = some b))
      ∧ (o.life = .running → s.engine.state ≠ .halted → rampOf s { lane := r.id.lane, seq := o.seq } = false →
          (∀ x ∈ s.strokes.records, x.id.lane = r.id.lane → x.id = r.id) → OrdersPlaced s →
          ∀ w, w = strokeFailed r c s → slotOrder w e.slot = some { o with
            life := .reporting, stopCause := some c, outcome := some c.outcome, reason := 0 }
          ∧ w.channel.queue = (issueMore r.id.lane u).channel.queue ++ [.result e.slot]
          ∧ w.strokes.generators[r.id.lane] = none)
      ∧ SamePort s u ∧ u.intake = s.intake ∧ u.channel = s.channel ∧ u.domains = s.domains ∧ u.array = s.array)
  ∧ (∀ (s : State) (r : StrokeRecord) (e : TableEntry) (o p : PoolOrder) (g : Generator) (x : RegionId) (n : OrderName),
    laneEntry s r.id.lane = some e → slotOrder s e.slot = some o → o.seq = r.id.seq →
    s.strokes.generators[r.id.lane] = some g → g.armingList ≠ [] → r.kind = .arming → x = addrRegion r.place →
    n = { lane := r.id.lane, seq := o.seq } → p = { o with corrected := min (o.corrected + r.corrected) 65535 } →
    ∀ u, u = strokeCompletes r s →
      u.strokes.records = s.strokes.records.filter (fun y => y.id ≠ r.id)
      ∧ SamePort s u ∧ u.intake = s.intake ∧ u.reporting = s.reporting ∧ u.banks = s.banks ∧ u.refresh = s.refresh
      ∧ u.domains = s.domains ∧ u.arrayMode = s.arrayMode ∧ u.array = s.array
      ∧ (∀ y : RegionId, y ≠ x → u.regions[y] = s.regions[y])
      ∧ (s.regions[x].state ≠ .arming ∨ s.regions[x].owner ≠ some n →
          u.regions[x] = s.regions[x] ∧ slotOrder u e.slot = some p
          ∧ u.strokes.generators[r.id.lane] = some (enterPrefix r.id.index g) ∧ u.channel = s.channel)
      ∧ (s.regions[x].state = .arming → s.regions[x].owner = some n → s.regions[x].sweep + 1 < 65536 →
          u.regions[x] = { state := .arming, owner := some n, sweep := s.regions[x].sweep + 1 } ∧ slotOrder u e.slot = some p
          ∧ u.strokes.generators[r.id.lane] = some (enterPrefix r.id.index g) ∧ u.channel = s.channel)
      ∧ (s.regions[x].state = .arming → s.regions[x].owner = some n → 65536 ≤ s.regions[x].sweep + 1 →
          u.regions[x] = { state := .kept, owner := none, sweep := 0 }
          ∧ (o.done + 4194304 < 4194304 * g.armingList.length →
              slotOrder u e.slot = some { p with done := o.done + 4194304 }
              ∧ u.strokes.generators[r.id.lane] = some (enterPrefix r.id.index g) ∧ u.channel = s.channel)
          ∧ (4194304 * g.armingList.length ≤ o.done + 4194304 → o.life = .running →
              Reports u e.slot o .ok 0 0 (o.done + 4194304) ∧ u.strokes.generators[r.id.lane] = none)))
  ∧ ∀ (s : State) (l : Lane) (e : TableEntry) (o : PoolOrder) (g : Generator),
    laneEntry s l = some e → slotOrder s e.slot = some o → s.strokes.generators[l] = some g →
    (o.life = .running → g.armingList ≠ [] ∨ g.prefixLen ≠ g.strokeCount → endTests l s = s)
    ∧ (o.life = .running → g.armingList = [] → g.prefixLen = g.strokeCount → ∀ u, u = endTests l s →
        Reports u e.slot o (if o.corrected = 0 then .ok else .okCorrected) 0 o.corrected o.done
        ∧ u.strokes.generators[l] = none ∧ SamePort s u ∧ SameArraySide s u)
    ∧ (o.life = .stopping → (s.engine.state = .halted ∨ o.stopCause = none ∨ laneInFlight s l = true) → endTests l s = s)
    ∧ ∀ c, o.life = .stopping → s.engine.state ≠ .halted → o.stopCause = some c → laneInFlight s l = false → ∀ u, u = endTests l s →
        Reports u e.slot o c.outcome 0 o.corrected o.done
        ∧ u.strokes.generators[l] = none ∧ SamePort s u ∧ SameArraySide s u

/-! ## Banks and refresh -/

/-- BANK_ARBITER_DECISION at URGENT (R119): an OPEN bank starts a close, an IDLE bank a refresh, of a row group of a segment KEPT or ARMING (R115), whatever requests wait. Which group is in BankOperationsComplete. -/
def Obligations.UrgentServesRefreshFirst : Prop :=
  ∀ (s : State) (b : BankId), s.banks[b].sleepHold = false → s.banks[b].standDown = false → s.refresh.banks[b].account = 8 →
    (s.banks[b].state = .opened →
      exec (.bankArbiterDecision b) s = .next { s with banks := s.banks.set b { s.banks[b] with state := .closing } })
    ∧ (s.banks[b].state = .idle → ∃ group, InRetainedSegment s b group ∧ 
      exec (.bankArbiterDecision b) s = .next { s with banks := s.banks.set b { s.banks[b] with state := .refreshing, rowGroup := group } })

/-- BANK_ARBITER_DECISION in OPEN with the level not URGENT (R120): a row hit of the earliest sequence, the first joined among equals, while the streak is below 16 or no other row waits; else a close if a request waits or the level is DUE; else the bank stays. -/
def Obligations.OpenBankPrefersRowHits : Prop :=
  ∀ (s : State) (b : BankId) (row : BitVec 14), s.banks[b].sleepHold = false → s.banks[b].standDown = false →
    s.banks[b].state = .opened → s.banks[b].openRow = some row → s.refresh.banks[b].account < 8 →
    (∀ earlier q later, s.banks[b].requests = earlier ++ q :: later → q.row = row →
      (∀ x ∈ earlier, x.row = row → seqBefore q.seq x.seq = true) →
      (∀ x ∈ later, x.row = row → q.seq = x.seq ∨ seqBefore q.seq x.seq = true) →
      (s.banks[b].streak < 16 ∨ ∀ x ∈ s.banks[b].requests, x.row = row) →
      exec (.bankArbiterDecision b) s = .next { s with banks := s.banks.set b { s.banks[b] with
        state := .accessing, inHand := some q, requests := earlier ++ later, streak := min (s.banks[b].streak + 1) 16 } })
    ∧ (((∀ x ∈ s.banks[b].requests, x.row ≠ row) ∨ (16 ≤ s.banks[b].streak ∧ ∃ x ∈ s.banks[b].requests, x.row ≠ row)) →
      (s.banks[b].requests ≠ [] ∨ 4 ≤ s.refresh.banks[b].account) →
      exec (.bankArbiterDecision b) s = .next { s with banks := s.banks.set b { s.banks[b] with state := .closing } })
    ∧ (s.banks[b].requests = [] → s.refresh.banks[b].account < 4 → exec (.bankArbiterDecision b) s = .next s)

/-- BANK_ARBITER_DECISION in IDLE with the level not URGENT (R121): DUE starts a refresh; else the row of the waiting request of the earliest sequence, the first joined among equals, is opened with a hit streak of 0; else an allowed pull-in starts a refresh; else the bank stays. A refresh takes a row group of a segment KEPT or ARMING (R115). -/
def Obligations.IdleBankRefreshesOrOpens : Prop :=
  ∀ (s : State) (b : BankId), s.banks[b].sleepHold = false → s.banks[b].standDown = false → s.banks[b].state = .idle →
    s.refresh.banks[b].account < 8 →
    (4 ≤ s.refresh.banks[b].account → ∃ group, InRetainedSegment s b group ∧ 
      exec (.bankArbiterDecision b) s = .next { s with banks := s.banks.set b { s.banks[b] with state := .refreshing, rowGroup := group } })
    ∧ (∀ earlier q later, s.refresh.banks[b].account < 4 → s.banks[b].requests = earlier ++ q :: later →
      (∀ x ∈ earlier, seqBefore q.seq x.seq = true) → (∀ x ∈ later, q.seq = x.seq ∨ seqBefore q.seq x.seq = true) →
      exec (.bankArbiterDecision b) s = .next { s with banks := s.banks.set b { s.banks[b] with
        state := .opening, openRow := some q.row, streak := 0 } })
    ∧ (s.refresh.banks[b].account < 4 → s.banks[b].requests = [] →
      (0 < s.refresh.banks[b].k ∧ -8 < s.refresh.banks[b].account → ∃ group, InRetainedSegment s b group ∧ 
        exec (.bankArbiterDecision b) s = .next { s with banks := s.banks.set b { s.banks[b] with state := .refreshing, rowGroup := group } })
      ∧ (¬(0 < s.refresh.banks[b].k ∧ -8 < s.refresh.banks[b].account) → exec (.bankArbiterDecision b) s = .next s))

/-- BANK_OPEN_COMPLETE, BANK_CLOSE_COMPLETE and REFRESH_COMPLETE (R115, R118, R123, R126, R127, R137): the bank comes to OPEN or IDLE and decides, unless its sleep hold or stand-down is set; with both set it reports ASLEEP and stood down at one event. A refresh moves the account by its void flag, k and floor. A refresh takes one row group of 16 rows (R115), the next in turn over the segments in KEPT or ARMING; where the turn starts and how it goes on is the model's choice (log 31). In any other bank state the completion has no effect (log 2). -/
def Obligations.BankOperationsComplete : Prop :=
  (∀ (b : BankId) (g : RowGroup) (row : BitVec 14), row.toNat / 16 = g.val → addrSegment (placeAddress b row 0) = groupSegment g)
  ∧ (∀ (s t : State) (b : BankId) (start : RowGroup), (start = match s.banks[b].rowGroup with | none => 0 | some g => g + 1) →
    exec (.bankArbiterDecision b) s = .next t → s.banks[b].state = .idle → t.banks[b].state = .refreshing →
    InRetainedSegment s b t.banks[b].rowGroup
    ∧ (t.banks[b].rowGroup = none ↔ retainedCount s b = 0)
    ∧ ∀ g h, t.banks[b].rowGroup = some g → InRetainedSegment s b (some h) → (g - start).val ≤ (h - start).val)
  ∧ (∀ (s : State) (b : BankId), (s.banks[b].state ≠ .opening → exec (.bankOpenComplete b) s = .next s)
    ∧ (s.banks[b].state ≠ .closing → exec (.bankCloseComplete b) s = .next s)
    ∧ (s.banks[b].state ≠ .refreshing → exec (.refreshComplete b) s = .next s)
    ∧ ∀ fresh, s.banks[b].state ≠ .accessing ∨ s.banks[b].inHand = none → exec (.bankAccessComplete b fresh) s = .next s)
  ∧ (∀ (s : State) (b : BankId), s.banks[b].state = .opening →
    (s.banks[b].sleepHold = true ∨ s.banks[b].standDown = true →
      exec (.bankOpenComplete b) s = .next { s with banks := s.banks.set b { s.banks[b] with state := .closing } })
    ∧ (s.banks[b].sleepHold = false → s.banks[b].standDown = false →
      exec (.bankOpenComplete b) s = exec (.bankArbiterDecision b) { s with banks := s.banks.set b { s.banks[b] with state := .opened } }))
  ∧ (∀ (s : State) (b : BankId), s.banks[b].state = .closing →
    exec (.bankCloseComplete b) s = .next (settle s (restOrDecide b
      { s with banks := s.banks.set b { s.banks[b] with state := .idle, openRow := none } })))
  ∧ (∀ (s : State) (b : BankId), s.banks[b].state = .refreshing →
    ∃ r : RefreshBank, r.k = s.refresh.banks[b].k ∧ r.timer = s.refresh.banks[b].timer ∧ r.void = false
    ∧ r.interval = s.refresh.banks[b].interval
    ∧ (s.refresh.banks[b].void = true → r.account = s.refresh.banks[b].account)
    ∧ (s.refresh.banks[b].void = false → 0 < s.refresh.banks[b].k → -8 < s.refresh.banks[b].account →
        r.account = s.refresh.banks[b].account - 1)
    ∧ (s.refresh.banks[b].void = false → (s.refresh.banks[b].k = 0 ∨ s.refresh.banks[b].account ≤ -8) →
        r.account = s.refresh.banks[b].account)
    ∧ exec (.refreshComplete b) s = .next (settle s (restOrDecide b { s with
        banks := s.banks.set b { s.banks[b] with state := .idle }
        refresh := { s.refresh with banks := s.refresh.banks.set b r } })))
  ∧ ∀ (v : State) (b : BankId),
    (v.banks[b].sleepHold = false → v.banks[b].standDown = false →
      exec (.bankArbiterDecision b) v = .next (restOrDecide b v))
    ∧ (v.banks[b].sleepHold = true → v.banks[b].standDown = false → restOrDecide b v = sleepEntryTest { v with
        banks := v.banks.set b { v.banks[b] with state := .asleep, openRow := none, streak := 0, sleepHold := false }
        refresh := { v.refresh with banks := v.refresh.banks.set b { v.refresh.banks[b] with account := 0, timer := none, void := false } } })
    ∧ (∀ served, v.banks[b].sleepHold = true → v.banks[b].standDown = true → v.domains.serving = some served →
        served.phase = .standingDown → bankDomain b = served.domain →
        ∃ w, w = sleepEntryTest { v with
          banks := v.banks.set b { v.banks[b] with state := .asleep, openRow := none, streak := 0, sleepHold := false }
          refresh := { v.refresh with banks := v.refresh.banks.set b { v.refresh.banks[b] with account := 0, timer := none, void := false } } }
        ∧ restOrDecide b v = drainTest { w with
          domains := { v.domains with
            serving := some { served with
              lowerDown := served.lowerDown || b == lowerBank served.domain
              upperDown := served.upperDown || b == upperBank served.domain } } })
    ∧ (∀ served, v.banks[b].sleepHold = false → v.banks[b].standDown = true → v.domains.serving = some served →
        served.phase = .standingDown → bankDomain b = served.domain → restOrDecide b v = drainTest { v with
          domains := { v.domains with
            serving := some { served with
              lowerDown := served.lowerDown || b == lowerBank served.domain
              upperDown := served.upperDown || b == upperBank served.domain } } })

/-- BANK_ACCESS_COMPLETE, the array (R100, R102, R104, R107, log 13): a WRITE stores its 64 bytes and leaves their eight words clean; a SCRUB classified CORRECTED leaves the words clean; every other access leaves each word as it is found. No other byte and no other word changes. -/
def Obligations.AccessStoresOnlyItsStroke : Prop :=
  ∀ (s : State) (b : BankId) (q : BankRequest) (fresh : LineDisturbance), s.banks[b].state = .accessing →
    s.banks[b].inHand = some q → MemoryCanonical s →
    ∃ u, exec (.bankAccessComplete b fresh) s = .next (settle s u)
    ∧ (∀ x, (x < placeAddress b q.row q.column ∨ placeAddress b q.row q.column + 64 ≤ x) → arrayByte u.array x = arrayByte s.array x)
    ∧ (∀ n, (n < placeAddress b q.row q.column / 8 ∨ placeAddress b q.row q.column / 8 + 8 ≤ n) →
        wordDisturbance u.array n = wordDisturbance s.array n)
    ∧ (∀ data, q.kind = .write data →
        (∀ j : Fin 64, arrayByte u.array (placeAddress b q.row q.column + j.val) = data[j])
        ∧ ∀ j : Fin 8, wordDisturbance u.array (placeAddress b q.row q.column / 8 + j.val) = .clean)
    ∧ (q.kind = .read ∨ q.kind = .scrub →
        ∀ j : Fin 64, arrayByte u.array (placeAddress b q.row q.column + j.val) = arrayByte s.array (placeAddress b q.row q.column + j.val))
    ∧ (q.kind = .read ∨ (q.kind = .scrub ∧ ∀ n, requestClass b q fresh s.array ≠ .corrected n) →
        ∀ j : Fin 8, wordDisturbance u.array (placeAddress b q.row q.column / 8 + j.val) =
          joinDisturbance (wordDisturbance s.array (placeAddress b q.row q.column / 8 + j.val)) fresh[j])
    ∧ (∀ n, q.kind = .scrub → requestClass b q fresh s.array = .corrected n →
        ∀ j : Fin 8, wordDisturbance u.array (placeAddress b q.row q.column / 8 + j.val) = .clean)
    ∧ SamePort s u ∧ u.intake = s.intake ∧ u.domains = s.domains ∧ u.arrayMode = s.arrayMode

/-- BANK_ACCESS_COMPLETE, the stroke (R101 to R105, R107, R124): the result goes to the stroke that placed the request, if it still exists; then the OPEN bank closes for a sleep hold or stand-down, or decides. The classification is by the words found, each stored word joined with its fresh disturbance (log 13): two disturbances of one word make it uncorrectable. Byte j of the 64 read is the array's byte at the request's address + j (R100). -/
def Obligations.AccessHandsItsResultOn : Prop :=
  (∀ (m : ArrayCells) (a : Nat) (j : Fin 64), (readLine m a)[j] = arrayByte m (a + j.val))
  ∧ (∀ (b : BankId) (q : BankRequest) (fresh : LineDisturbance) (m : ArrayCells), requestClass b q fresh m =
    classify fun j => joinDisturbance (wordDisturbance m (placeAddress b q.row q.column / 8 + j.val)) fresh[j])
  ∧ (∀ d e : Disturbance, joinDisturbance .clean d = d ∧ joinDisturbance d .clean = d
      ∧ (d ≠ .clean → e ≠ .clean → joinDisturbance d e = .moreBits))
  ∧ (∀ f : Fin 8 → Disturbance,
    (classify f = .uncorrectable ↔ ∃ j, f j = .moreBits)
    ∧ (classify f = .clean ↔ ∀ j, f j = .clean)
    ∧ ∀ n, classify f = .corrected n → 1 ≤ n ∧ n ≤ 8 ∧ n = (List.finRange 8).countP fun j => f j == .oneBit)
  ∧ (∀ (w : State) (b : BankId), (w.banks[b].sleepHold = true ∨ w.banks[b].standDown = true) → w.banks[b].state = .opened →
      closeOrDecide b w = { w with banks := w.banks.set b { w.banks[b] with state := .closing } })
  ∧ (∀ (w : State) (b : BankId), w.banks[b].sleepHold = false → w.banks[b].standDown = false →
      exec (.bankArbiterDecision b) w = .next (closeOrDecide b w))
  ∧ ∀ (s : State) (b : BankId) (q : BankRequest) (fresh : LineDisturbance), s.banks[b].state = .accessing →
    s.banks[b].inHand = some q →
    ∃ v w, exec (.bankAccessComplete b fresh) s = .next (settle s (closeOrDecide b w))
    ∧ v = { s with banks := s.banks.set b { s.banks[b] with state := .opened, inHand := none }, array := v.array }
    ∧ (q.stroke.bind (findStroke s) = none → w = v)
    ∧ ∀ r, q.stroke.bind (findStroke s) = some r →
        (∀ data, q.kind = .write data → w = strokeDone r v)
        ∧ (q.kind = .read ∨ q.kind = .scrub → requestClass b q fresh s.array = .uncorrectable →
            w = strokeFailed r .dataError v)
        ∧ (q.kind = .scrub → requestClass b q fresh s.array ≠ .uncorrectable →
            w = strokeDone { r with corrected := (requestClass b q fresh s.array).words } v)
        ∧ (q.kind = .read → requestClass b q fresh s.array ≠ .uncorrectable →
            ∃ x, x = { v with strokes := x.strokes }
            ∧ x.strokes.records = s.strokes.records.map (fun y => if y.id ≠ r.id then y else
                { y with
                  phase := if r.kind = .copy then .arrayWriting else .hostWriting
                  corrected := (requestClass b q fresh s.array).words })
            ∧ (∀ f, r.buffer = some f → x.strokes.buffers =
                s.strokes.buffers.set f (some { holder := r.id, data := some (readLine s.array (placeAddress b q.row q.column)) }))
            ∧ (r.kind ≠ .copy → w = placeRequest (.hostWrite r.id) x)
            ∧ (r.kind = .copy → (addrBank r.destPlace = b ∨ s.banks[addrBank r.destPlace].state ≠ .unpowered) →
                w = joinBank (addrBank r.destPlace)
                  { seq := r.id.seq, row := addrRow r.destPlace, column := addrColumn r.destPlace, stroke := some r.id
                    kind := .write (readLine s.array (placeAddress b q.row q.column)) } x)
            ∧ (r.kind = .copy → addrBank r.destPlace ≠ b → s.banks[addrBank r.destPlace].state = .unpowered →
                w = strokeFailed { r with corrected := (requestClass b q fresh s.array).words } .regionDropped x))

/-- TICK (R135, R136, R140, R158, R159): below +8 the account rises by 1, a fresh interval of W and k begins and a changed indication reaches the arbiter; at +8 the tick is a breach, which stops the owners of the bank's ARMING regions and takes their other ARMING regions to DROPPED; a bank that loses no region keeps its account, k and timer. With the tick timer stopped there is no tick (log 9), nor for an interval that a stop or restart has discarded: after a change of k the interval that ran before it does not tick (R139, log 36). The window of each class is 64, 32 and 16 ms (R133); what a bank is shown of its account (R117, R138; at an ASLEEP bank too, log 32), k as the Region Map counts it (R151), and `bankDecide`, the arbiter's decision. -/
def Obligations.TickRaisesOrBreaches : Prop :=
  ([TempClass.normal, .warm, .hot].map windowMs = [64, 32, 16])
  ∧ (∀ (s : State) (b : BankId), exec (.bankArbiterDecision b) s = .next (bankDecide b s)
      ∧ ((indication s b).1 = .urgent ↔ 8 ≤ s.refresh.banks[b].account)
      ∧ ((indication s b).1 = .due ↔ 4 ≤ s.refresh.banks[b].account ∧ s.refresh.banks[b].account < 8)
      ∧ ((indication s b).2 = true ↔ 0 < s.refresh.banks[b].k ∧ -8 < s.refresh.banks[b].account)
      ∧ retainedCount s b = (List.finRange 8).countP fun g =>
          s.regions[regionOf b g].state == .kept || s.regions[regionOf b g].state == .arming)
  ∧ (∀ (s : State) (b : BankId) (n : Nat), (s.refresh.banks[b].timer = none ∨ s.refresh.banks[b].interval ≠ n) →
      exec (.tick { bank := b, interval := n }) s = .next s)
  ∧ (∀ (s t : State) (b : BankId) (n : Nat), HandedK s b n t.refresh.banks[b] → n ≠ s.refresh.banks[b].k →
      exec (.tick { bank := b, interval := s.refresh.banks[b].interval }) t = .next t)
  ∧ (∀ (s : State) (b : BankId), s.refresh.banks[b].timer.isSome = true → s.refresh.banks[b].account < 8 →
      ∃ v, v = { s with refresh := { s.refresh with banks := s.refresh.banks.set b { s.refresh.banks[b] with
          account := s.refresh.banks[b].account + 1
          timer := some { windowMs := windowMs s.refresh.tempClass, groups := 128 * s.refresh.banks[b].k }
          interval := s.refresh.banks[b].interval + 1 } } }
      ∧ (indication v b = indication s b →
          exec (.tick { bank := b, interval := s.refresh.banks[b].interval }) s = .next (settle s v))
      ∧ (indication v b ≠ indication s b →
          exec (.tick { bank := b, interval := s.refresh.banks[b].interval }) s = .next (settle s (bankDecide b v))))
  ∧ ∀ (s : State) (b : BankId), s.refresh.banks[b].timer.isSome = true → 8 ≤ s.refresh.banks[b].account → BankRefreshLegal s b →
      ∃ u, exec (.tick { bank := b, interval := s.refresh.banks[b].interval }) s = .next (settle s u)
      ∧ (∀ r : RegionId, regionBank r = b → u.regions[r] =
          if (s.regions[r].state = .kept ∨ s.regions[r].state = .arming) then { state := .lost, owner := none, sweep := 0 } else s.regions[r])
      ∧ (∀ r : RegionId, regionBank r ≠ b → s.regions[r].state ≠ .arming → u.regions[r] = s.regions[r])
      ∧ u.refresh.banks[b].account = 0 ∧ u.refresh.banks[b].k = 0 ∧ u.refresh.banks[b].timer = none
      ∧ (s.banks[b].state = .refreshing → u.refresh.banks[b].void = true)
      ∧ u.refresh.breaches = s.refresh.breaches + 1 ∧ u.refresh.tempClass = s.refresh.tempClass
      ∧ u.port = { s.port with alertPending := true } ∧ u.engine = s.engine ∧ HeaderAsked u
      ∧ (∀ l o, laneOrder s l = some o → o.life = .running →
          (∃ r : RegionId, regionBank r = b ∧ s.regions[r].state = .arming ∧ s.regions[r].owner = some { lane := l, seq := o.seq }) →
          ∃ p, laneOrder u l = some p ∧ p.stopCause = some .regionLost ∧ (p.life = .stopping ∨ p.life = .reporting))
      ∧ (OrdersPlaced s → ∀ r : RegionId, regionBank r ≠ b → s.regions[r].state = .arming →
          ((∃ l o y, laneOrder s l = some o ∧ o.life = .running ∧ s.regions[r].owner = some { lane := l, seq := o.seq }
              ∧ regionBank y = b ∧ s.regions[y].state = .arming ∧ s.regions[y].owner = s.regions[r].owner) →
            u.regions[r] = { state := .dropped, owner := none, sweep := 0 })
          ∧ ((∀ l o y, laneOrder s l = some o → o.life = .running → s.regions[r].owner = some { lane := l, seq := o.seq } →
              regionBank y = b → s.regions[y].state = .arming → s.regions[y].owner ≠ s.regions[r].owner) →
            u.regions[r] = s.regions[r]))
      ∧ (∀ c : BankId, c ≠ b → s.refresh.banks[c].k = retainedCount s c → u.refresh.banks[c].k = retainedCount u c
          ∧ ((∀ r : RegionId, regionBank r = c → s.regions[r].state ≠ .arming) → u.refresh.banks[c] = s.refresh.banks[c]))
      ∧ u.intake = s.intake ∧ u.domains = s.domains ∧ u.arrayMode = s.arrayMode ∧ u.array = s.array

/-- SAMPLE_TIMER_EXPIRY (R145, R146, R147): the reported class becomes the temperature class and a header update is asked for; HOT sets ALERT pending; no account and no timer moves. The class already held is no change. That nothing changes with the sample timer stopped is the model's choice (logs 9 and 25). -/
def Obligations.SampleReplacesTheClass : Prop :=
  (∀ (s : State) (c : TempClass), (s.refresh.sampleTimer = false ∨ s.refresh.tempClass = c) → exec (.sampleTimerExpiry c) s = .next s)
  ∧ ∀ (s : State) (c : TempClass), s.refresh.sampleTimer = true → s.refresh.tempClass ≠ c →
    ∃ u, exec (.sampleTimerExpiry c) s = .next (issueAccess u)
    ∧ u.refresh = { s.refresh with tempClass := c }
    ∧ u.port = { s.port with alertPending := s.port.alertPending || c == .hot }
    ∧ HeaderAsked u ∧ (∀ r ∈ s.channel.queue, r ∈ u.channel.queue) ∧ u.channel.outstanding = s.channel.outstanding
    ∧ u.engine = s.engine ∧ u.intake = s.intake ∧ SameOrders s u ∧ u.banks = s.banks ∧ u.regions = s.regions
    ∧ u.domains = s.domains ∧ u.arrayMode = s.arrayMode ∧ u.array = s.array
    ∧ u.reporting.notifyOwed = s.reporting.notifyOwed ∧ u.reporting.released = s.reporting.released

/-! ## Domains -/

/-- SWITCH_TAKE (R168, R169, R170): an IDLE switch controller takes the head request: complete at once if the domain is in its end state, else a ramp-up begins, or a ramp-down with its stand-down. What a stand-down does by bank state (R126), and what completing a request does for its owner (R83). `switchTakes`, which the ends of a ramp and the start of a POWER order name, is what SWITCH_TAKE does before what follows at the event. -/
def Obligations.SwitchTakesTheHead : Prop :=
  ((∀ (s : State) (b : BankId),
    (s.banks[b].state = .unpowered → standDownAt b s = s)
    ∧ (s.banks[b].state = .opened → standDownAt b s =
        { s with banks := s.banks.set b { s.banks[b] with state := .closing, standDown := true } })
    ∧ (s.banks[b].state = .opening ∨ s.banks[b].state = .accessing ∨ s.banks[b].state = .closing ∨ s.banks[b].state = .refreshing →
        standDownAt b s = { s with banks := s.banks.set b { s.banks[b] with standDown := true } })
    ∧ (∀ served, s.banks[b].state = .idle ∨ s.banks[b].state = .asleep → s.domains.serving = some served →
        served.phase = .standingDown → bankDomain b = served.domain → standDownAt b s = drainTest { s with
          banks := s.banks.set b { s.banks[b] with standDown := true }
          domains := { s.domains with
            serving := some { served with
              lowerDown := served.lowerDown || b == lowerBank served.domain
              upperDown := served.upperDown || b == upperBank served.domain } } }))
  ∧ (∀ s, powerComplete none s = s)
  ∧ (∀ s l q, (∀ o, laneOrder s l = some o → o.seq ≠ q) → powerComplete (some { lane := l, seq := q }) s = s)
  ∧ ∀ (s : State) (l : Lane) (q : Word) (e : TableEntry) (o : PoolOrder), laneEntry s l = some e → slotOrder s e.slot = some o →
    o.seq = q → o.life = .running →
    ∀ u, u = powerComplete (some { lane := l, seq := q }) s → Reports u e.slot o .ok 0 0 0
      ∧ SamePort s u ∧ u.intake = s.intake ∧ SameArraySide s u ∧ u.arrayMode = s.arrayMode
      ∧ (∀ j, j ≠ e.slot → slotOrder u j = slotOrder s j) ∧ ∀ m, m ≠ l → laneEntry u m = laneEntry s m)
  ∧ (∀ s : State, (s.domains.serving ≠ none ∨ s.domains.requests = []) →
      exec .switchTake s = .next (settle s s) ∧ switchTakes s = s)
  ∧ ∀ (s : State) (q : DomainRequest) (rest : List DomainRequest), s.domains.serving = none → s.domains.requests = q :: rest →
    (s.domains.states[q.domain] = (if q.on then .on else .off) →
      exec .switchTake s = .next (settle s (switchTakes s))
      ∧ switchTakes s = switchTakes (powerComplete (some q.order) { s with domains := { s.domains with requests := rest } }))
    ∧ (q.on = true → s.domains.states[q.domain] ≠ .on → ∃ u, exec .switchTake s = .next (settle s u) ∧ u = switchTakes s
        ∧ u.domains = { states := s.domains.states.set q.domain .rampingUp, requests := rest,
                        serving := some { domain := q.domain, on := true, owner := some q.order, phase := .rising,
                                          lowerDown := false, upperDown := false },
                        rampTimer := some 40 }
        ∧ HeaderAsked u ∧ SamePort s u ∧ SameOrders s u ∧ u.intake = s.intake ∧ u.banks = s.banks ∧ u.refresh = s.refresh
        ∧ u.regions = s.regions ∧ u.arrayMode = s.arrayMode ∧ u.array = s.array)
    ∧ (q.on = false → s.domains.states[q.domain] ≠ .off →
        exec .switchTake s = .next (settle s (switchTakes s))
        ∧ switchTakes s = standDownAt (upperBank q.domain) (standDownAt (lowerBank q.domain)
          { s with domains := { s.domains with
              requests := rest
              serving := some { domain := q.domain, on := false, owner := some q.order, phase := .standingDown,
                                lowerDown := false, upperDown := false } } }))

/-- RAMP_UP_COMPLETE, DRAIN_START and RAMP_DOWN_COMPLETE (R125, R126, R142, R152, R153, R169, R170). The strokes whose requests a drain start discards fail lower bank first, each bank's in join order (log 5), and after the regions have gone to OFF, so that the grants that follow them see OFF: the model's choice, log 37. The bytes of a drained domain read 0 by log 12 and 14. `discardStroke` fails a stroke still in flight with REGION_DROPPED and passes over any other; `waitingStrokes` lists the strokes of a bank's requests in join order. `drainTest`, which the reports of stood-down banks name, is what DRAIN_START does before what follows at the event. -/
def Obligations.RampsMoveTheDomain : Prop :=
  (∀ (s : State) (v : Served), s.domains.serving = some v → v.phase = .rising → s.domains.rampTimer.isSome = true → RefreshLegal s →
    ∃ w, exec .rampUpComplete s = .next (settle s (switchTakes (powerComplete v.owner w)))
    ∧ w.domains = { states := s.domains.states.set v.domain .on, requests := s.domains.requests, serving := none, rampTimer := none }
    ∧ HeaderAsked w ∧ SamePort s w ∧ SameOrders s w ∧ w.intake = s.intake ∧ w.refresh = s.refresh ∧ w.arrayMode = s.arrayMode
    ∧ w.array = s.array
    ∧ (∀ r : RegionId, w.regions[r] = if regionDomain r = v.domain then { state := .dropped, owner := none, sweep := 0 } else s.regions[r])
    ∧ ∀ b : BankId, w.banks[b] = if bankDomain b = v.domain then
        { state := if s.arrayMode.mode = .run then .idle else .asleep, openRow := none, requests := [], inHand := none, streak := 0,
          sleepHold := false, standDown := false, rowGroup := s.banks[b].rowGroup } else s.banks[b])
  ∧ (∀ (s : State) (v : Served), s.domains.serving = some v → (v.phase ≠ .standingDown ∨ v.lowerDown = false ∨ v.upperDown = false) →
    exec .drainStart s = .next (settle s s) ∧ drainTest s = s)
  ∧ (∀ s : State, exec .drainStart s = .next (settle s (drainTest s)) ∧ (s.domains.serving = none → drainTest s = s))
  ∧ (∀ (s : State) (r : StrokeRecord),
    ((∃ x ∈ s.strokes.records, x.id = r.id) → discardStroke s r = strokeFailed r .regionDropped s)
    ∧ ((∀ x ∈ s.strokes.records, x.id ≠ r.id) → discardStroke s r = s))
  ∧ (∀ (s : State) (b : BankId), waitingStrokes s b = s.banks[b].requests.filterMap fun q => q.stroke.bind (findStroke s))
  ∧ (∀ (s : State) (v : Served), s.domains.serving = some v → v.phase = .standingDown → v.lowerDown = true → v.upperDown = true →
    MemoryCanonical s →
    ∃ w, exec .drainStart s = .next (settle s (drainTest s)) ∧ drainTest s = sleepEntryTest
      ((waitingStrokes s (lowerBank v.domain) ++ waitingStrokes s (upperBank v.domain)).foldl discardStroke w)
    ∧ w.domains = { s.domains with
        states := s.domains.states.set v.domain .rampingDown, serving := some { v with phase := .falling }, rampTimer := some 10 }
    ∧ HeaderAsked w ∧ SamePort s w ∧ SameOrders s w ∧ w.intake = s.intake ∧ w.arrayMode = s.arrayMode
    ∧ (∀ b : BankId, w.banks[b] = if bankDomain b = v.domain then
        { s.banks[b] with state := .unpowered, openRow := none, requests := [], streak := 0, sleepHold := false, standDown := false }
        else s.banks[b])
    ∧ (∀ r : RegionId, w.regions[r] = if regionDomain r = v.domain then { state := .off, owner := none, sweep := 0 } else s.regions[r])
    ∧ (∀ b : BankId, w.refresh.banks[b] = if bankDomain b = v.domain then
          { account := 0, k := 0, timer := none, void := false, interval := s.refresh.banks[b].interval }
        else s.refresh.banks[b])
    ∧ w.refresh.breaches = s.refresh.breaches ∧ w.refresh.tempClass = s.refresh.tempClass
    ∧ (∀ x, arrayByte w.array x = if bankDomain (addrBank x) = v.domain then 0 else arrayByte s.array x))
  ∧ ∀ (s : State) (v : Served), s.domains.serving = some v → v.phase = .falling → s.domains.rampTimer.isSome = true →
    ∃ w, exec .rampDownComplete s = .next (settle s (switchTakes (powerComplete v.owner w)))
    ∧ w.domains = { states := s.domains.states.set v.domain .off, requests := s.domains.requests, serving := none, rampTimer := none }
    ∧ HeaderAsked w ∧ SamePort s w ∧ SameOrders s w ∧ w.intake = s.intake ∧ w.banks = s.banks ∧ w.refresh = s.refresh
    ∧ w.regions = s.regions ∧ w.arrayMode = s.arrayMode ∧ w.array = s.array

/-! ## Array sleep -/

/-- IDLE_TIMER_EXPIRY and SLEEP_ENTRY_COMPLETE (R127, R143, R174, R175, R176); a domain standing down goes on standing down. Outside RUN or with the timer stopped the expiry changes nothing (logs 2 and 9). When a wake is demanded (R81) and when a bank is awake (R144). -/
def Obligations.SleepEntryRestsTheBanks : Prop :=
  (∀ s : State, (s.arrayMode.mode ≠ .run ∨ s.arrayMode.idleTimer = none) → exec .idleTimerExpiry s = .next s)
  ∧ (∀ s : State, s.arrayMode.mode = .run → s.arrayMode.idleTimer.isSome = true → StandDownReported s →
    ∃ u, exec .idleTimerExpiry s = .next (settle s u)
    ∧ (∀ b : BankId, u.banks[b] =
        match s.banks[b].state with
        | .unpowered | .asleep => s.banks[b]
        | .idle => { s.banks[b] with state := .asleep, openRow := none, streak := 0, sleepHold := false }
        | .opened => { s.banks[b] with state := .closing, sleepHold := true }
        | .opening | .accessing | .closing | .refreshing => { s.banks[b] with sleepHold := true })
    ∧ (∀ b : BankId, u.refresh.banks[b] = if s.banks[b].state = .idle then
        { s.refresh.banks[b] with account := 0, timer := none, void := false } else s.refresh.banks[b])
    ∧ ((∃ b : BankId, bankAwake u.banks[b] = true) → u.arrayMode = { s.arrayMode with mode := .enteringSleep, idleTimer := none })
    ∧ ((∀ b : BankId, bankAwake u.banks[b] = false) → u.arrayMode =
        if wakeDemand s = true ∧ s.arrayMode.forcedSleep = false then
          { s.arrayMode with mode := .waking, idleTimer := none, wakeTimer := some 150 }
        else { s.arrayMode with mode := .asleep, idleTimer := none })
    ∧ HeaderAsked u ∧ SamePort s u ∧ SameOrders s u ∧ u.intake = s.intake ∧ u.regions = s.regions ∧ u.domains = s.domains
    ∧ u.array = s.array)
  ∧ (∀ s : State, (s.arrayMode.mode ≠ .enteringSleep ∨ ∃ b : BankId, bankAwake s.banks[b] = true) →
    exec .sleepEntryComplete s = .next (settle s s) ∧ sleepEntryTest s = s)
  ∧ (∀ s : State, (wakeDemand s = true ↔ ∃ l e, laneEntry s l = some e ∧ laneLife s l = some .waiting ∧ e.wait = some .array)
    ∧ ∀ b : BankId, bankAwake s.banks[b] = true ↔ s.banks[b].state ≠ .unpowered ∧ s.banks[b].state ≠ .asleep)
  ∧ ∀ s : State, s.arrayMode.mode = .enteringSleep → (∀ b : BankId, bankAwake s.banks[b] = false) →
    ∃ u, exec .sleepEntryComplete s = .next (settle s u) ∧ u = sleepEntryTest s
    ∧ u.arrayMode = (if wakeDemand s = true ∧ s.arrayMode.forcedSleep = false then
        { s.arrayMode with mode := .waking, wakeTimer := some 150 } else { s.arrayMode with mode := .asleep })
    ∧ HeaderAsked u ∧ SamePort s u ∧ SameOrders s u ∧ SameArraySide s u ∧ u.intake = s.intake

/-- WAKE_TIMER_EXPIRY (R128, R143, R176): every ASLEEP bank is IDLE with account 0 and, with k above 0, its tick timer started; then the arbiters decide, in ascending bank order (log 5), and every waiting entry is tested. With the forced-sleep flag the array goes back to sleep at the same event (R177), before the decisions and the start tests (log 8), a domain standing down going on; an order already waiting ARRAY then starts the next wake (R176). Outside WAKING the expiry changes nothing (logs 2 and 9). Where several orders start at the wake, each has all its grants before the next lane's test: the model's choice, log 38. -/
def Obligations.WakeBringsTheArrayToRun : Prop :=
  (∀ s : State, (s.arrayMode.mode ≠ .waking ∨ s.arrayMode.wakeTimer = none) → exec .wakeTimerExpiry s = .next s)
  ∧ (∀ s : State, s.arrayMode.mode = .waking → s.arrayMode.wakeTimer.isSome = true → s.arrayMode.forcedSleep = false →
    ∃ w, exec .wakeTimerExpiry s = .next (settle s (startTests (allBanks.foldl (fun t b => bankDecide b t) w)))
    ∧ w.arrayMode = { s.arrayMode with mode := .run, wakeTimer := none } ∧ HeaderAsked w
    ∧ (∀ b : BankId, w.banks[b] = if s.banks[b].state = .asleep then { s.banks[b] with state := .idle, openRow := none, streak := 0 }
        else s.banks[b])
    ∧ (∀ b : BankId, w.refresh.banks[b] = if s.banks[b].state = .asleep then
        { s.refresh.banks[b] with
          account := 0
          timer := if s.refresh.banks[b].k = 0 then none
            else some { windowMs := windowMs s.refresh.tempClass, groups := 128 * s.refresh.banks[b].k }
          interval := if s.refresh.banks[b].k = 0 then s.refresh.banks[b].interval else s.refresh.banks[b].interval + 1 }
        else s.refresh.banks[b])
    ∧ SamePort s w ∧ SameOrders s w ∧ w.intake = s.intake ∧ w.regions = s.regions ∧ w.domains = s.domains ∧ w.array = s.array)
  ∧ ∀ s : State, s.arrayMode.mode = .waking → s.arrayMode.wakeTimer.isSome = true → s.arrayMode.forcedSleep = true →
    SleepHolds s → StandDownReported s →
    ∃ u, exec .wakeTimerExpiry s = .next (settle s (startTests u))
    ∧ u.arrayMode = (if wakeDemand s = true then { mode := .waking, idleTimer := none, wakeTimer := some 150, forcedSleep := false }
        else { mode := .asleep, idleTimer := none, wakeTimer := none, forcedSleep := false })
    ∧ (∀ b : BankId, bankAwake u.banks[b] = false) ∧ u.regions = s.regions ∧ u.domains = s.domains ∧ u.array = s.array
    ∧ SamePort s u ∧ SameOrders s u ∧ u.intake = s.intake

/-! ## What follows at the same event -/

/-- The start tests, the idle timer and the arbiter that follow a command. Where an entry changed state or became EMPTY or lost its footprint, every lane is tested as START_TEST tests it, in ascending rounds until four have been made (R78, log 5), each start whole with its grants before the next lane's test (the model's choice, log 38); in RUN the idle timer starts where busy has gone and stops where it is present (R174, R81); then the arbiter issues (R186). That the start tests come after the command's own effect, a promotion among it, is the model's choice (log 33). They change no register, no engine state, no tally, no lane queue and no intake field but nudge-pending; where no table entry moved, they change only the idle timer and what one issue changes. -/
def Obligations.FollowUpsLeaveTheRest : Prop :=
  ∀ s u : State,
    SamePort u (settle s u) ∧ (settle s u).pending = u.pending
    ∧ (settle s u).intake = { u.intake with nudgePending := (settle s u).intake.nudgePending }
    ∧ (settle s u).reporting.released = u.reporting.released ∧ (settle s u).reporting.releaseInProgress = u.reporting.releaseInProgress
    ∧ (settle s u).pool = { u.pool with slots := (settle s u).pool.slots }
    ∧ (settle s u).refresh.breaches = u.refresh.breaches ∧ (settle s u).refresh.tempClass = u.refresh.tempClass
    ∧ (tableView u = tableView s → SameOrders u (settle s u) ∧ SameArraySide u (settle s u)
        ∧ (settle s u).arrayMode = { u.arrayMode with idleTimer := (settle s u).arrayMode.idleTimer })
    ∧ (tableView u = tableView s ↔ ∀ l : Lane, (laneEntry u l).map (·.slot) = (laneEntry s l).map (·.slot)
        ∧ laneLife u l = laneLife s l ∧ (laneEntry u l).map (·.footprint.isSome) = (laneEntry s l).map (·.footprint.isSome))
    ∧ (∀ l, exec (.startTest l) u = .next (settle u (runStartTest l u)))
    ∧ startTests u = [0, 1, 2, 3, 0, 1, 2, 3, 0, 1, 2, 3, 0, 1, 2, 3].foldl (fun v l => runStartTest l v) u
    ∧ (busy u = true ↔ ∃ l, laneLife u l = some .waiting ∨ laneLife u l = some .running ∨ laneLife u l = some .stopping)
    ∧ ∀ v, v = (if tableView u = tableView s then u else startTests u) →
        (∃ w, settle s u = issueAccess w ∧ w = { v with arrayMode := { v.arrayMode with idleTimer := w.arrayMode.idleTimer } })
        ∧ (v.arrayMode.mode ≠ .run ∨ busy v = true → (settle s u).arrayMode.idleTimer = none)
        ∧ (v.arrayMode.mode = .run → busy v = false → v.arrayMode.idleTimer = none →
            (settle s u).arrayMode.idleTimer = idleIntervalUs v.port.idleSleep)
        ∧ (v.arrayMode.mode = .run → busy v = false → v.arrayMode.idleTimer.isSome = true →
            (settle s u).arrayMode.idleTimer = v.arrayMode.idleTimer)

/-! ## Invariants -/

/-- Every invariant stated below holds at reset. -/
def Obligations.InvariantsHoldAtReset : Prop :=
  MemoryCanonical State.reset ∧ RefreshLegal State.reset ∧ FlightCapped State.reset ∧ OrdersPlaced State.reset
    ∧ HeaderFlagAgrees State.reset ∧ CountsAgree State.reset ∧ CancelListLegal State.reset ∧ TimersLegal State.reset
    ∧ StandDownReported State.reset ∧ GeneratorsRun State.reset ∧ InterlockHolds State.reset ∧ IntakeLegal State.reset
    ∧ PoolAgrees State.reset

/-- Every step keeps the array's cells in canonical form. -/
def Obligations.StepKeepsMemoryCanonical : Prop :=
  ∀ s t : State, MemoryCanonical s → step s = .next t → MemoryCanonical t

/-- Every step keeps the refresh law of R144 with what it rests on: the regions' power (R150), the ramp's phase (R166), the sleep of the banks (R129). -/
def Obligations.StepKeepsRefreshLaw : Prop :=
  (∀ s t : State, RefreshLegal s → step s = .next t → RefreshLegal t)
    ∧ ∀ (s : State) (b : BankId), RefreshLegal s →
        -8 ≤ s.refresh.banks[b].account ∧ s.refresh.banks[b].account ≤ 8
        ∧ (s.banks[b].state = .unpowered ∨ s.banks[b].state = .asleep ∨ s.arrayMode.mode = .waking
            ∨ (∀ r : RegionId, regionBank r = b → s.regions[r].state ≠ .kept ∧ s.regions[r].state ≠ .arming) →
          s.refresh.banks[b].account = 0)

/-- Every step keeps every order in its one place, with its reporting writes one at a time (R51, R54, R70, R12, R13); and, the orders so placed, no two orders RUNNING or STOPPING come to have conflicting footprints (R77), each footprint being its order's (R74, R78). -/
def Obligations.StepKeepsOrdersPlaced : Prop :=
  (∀ s t : State, OrdersPlaced s → step s = .next t → OrdersPlaced t)
    ∧ (∀ s t : State, OrdersPlaced s → InterlockHolds s → step s = .next t → InterlockHolds t)
    ∧ ∀ (s : State) (l m : Lane) (x y : PoolOrder), InterlockHolds s → l ≠ m → laneOrder s l = some x → laneOrder s m = some y →
        x.life = .running ∨ x.life = .stopping → y.life = .running ∨ y.life = .stopping →
        ∃ j k, x.kind = some j ∧ y.kind = some k ∧ (footprintOf x.entry j).conflicts (footprintOf y.entry k) = false

/-- Every step keeps: the header-update-pending flag with its one waiting update (R16), the expected sequence equal to TAKEN (R23, R50), at most four cancels without duplicates (R61), the timers running only in their states (R28, R173, R174), at most four strokes of one order in flight (R93), a generator only for an order RUNNING or STOPPING, issuing only while it is RUNNING (R92, R112), every stood-down bank of the domain standing down reported, not both (R126, R170); at most four page records (R41) and one INTAKE request (R185), with the states that go with them (R23, R26, R34, R46); and the occupied slots equal to TAKEN minus FINISHED modulo 2^32 (R49), the pool empty in DISABLED and STARTING (R191). -/
def Obligations.StepKeepsCountsAndTimers : Prop :=
  ((∀ s t : State, HeaderFlagAgrees s → step s = .next t → HeaderFlagAgrees t)
    ∧ (∀ s t : State, CountsAgree s → step s = .next t → CountsAgree t)
    ∧ (∀ s t : State, CancelListLegal s → step s = .next t → CancelListLegal t)
    ∧ ∀ s t : State, TimersLegal s → step s = .next t → TimersLegal t)
  ∧ (∀ s t : State, FlightCapped s → step s = .next t → FlightCapped t)
  ∧ (∀ s t : State, OrdersPlaced s → GeneratorsRun s → step s = .next t → GeneratorsRun t)
  ∧ (∀ s t : State, StandDownReported s → step s = .next t → StandDownReported t)
  ∧ (∀ s t : State, IntakeLegal s → step s = .next t → IntakeLegal t)
  ∧ ∀ s t : State, IntakeLegal s → PoolAgrees s → step s = .next t → PoolAgrees t

end
end

