-- ==== Sys2Proof/Laws/State.lean ====
section
/-! SUPPORT. Beside State: what a fold over lanes or banks leaves unchanged, and for each plain update every field, set or left. -/

namespace Sys2Proof.Machine

/-- A fold of steps that each keep a field keeps it. -/
theorem foldl_keeps {α β : Type} (π : State → β) (f : State → α → State) (h : ∀ t a, π (f t a) = π t) (l : List α) (s : State) :
    π (l.foldl f s) = π s := by
  induction l generalizing s with
  | nil => rfl
  | cons a l ih => exact (ih (f s a)).trans (h s a)

@[simp] theorem foldl_port {α : Type} (f : State → α → State) (l : List α) (s : State)
    (h : ∀ t a, (f t a).port = t.port) : (l.foldl f s).port = s.port := foldl_keeps (fun t => t.port) f h l s
@[simp] theorem foldl_engine {α : Type} (f : State → α → State) (l : List α) (s : State)
    (h : ∀ t a, (f t a).engine = t.engine) : (l.foldl f s).engine = s.engine := foldl_keeps (fun t => t.engine) f h l s
@[simp] theorem foldl_channel {α : Type} (f : State → α → State) (l : List α) (s : State)
    (h : ∀ t a, (f t a).channel = t.channel) : (l.foldl f s).channel = s.channel := foldl_keeps (fun t => t.channel) f h l s
@[simp] theorem foldl_reporting {α : Type} (f : State → α → State) (l : List α) (s : State)
    (h : ∀ t a, (f t a).reporting = t.reporting) : (l.foldl f s).reporting = s.reporting := foldl_keeps (fun t => t.reporting) f h l s
@[simp] theorem foldl_intake {α : Type} (f : State → α → State) (l : List α) (s : State)
    (h : ∀ t a, (f t a).intake = t.intake) : (l.foldl f s).intake = s.intake := foldl_keeps (fun t => t.intake) f h l s
@[simp] theorem foldl_pool {α : Type} (f : State → α → State) (l : List α) (s : State)
    (h : ∀ t a, (f t a).pool = t.pool) : (l.foldl f s).pool = s.pool := foldl_keeps (fun t => t.pool) f h l s
@[simp] theorem foldl_table {α : Type} (f : State → α → State) (l : List α) (s : State)
    (h : ∀ t a, (f t a).table = t.table) : (l.foldl f s).table = s.table := foldl_keeps (fun t => t.table) f h l s
@[simp] theorem foldl_strokes {α : Type} (f : State → α → State) (l : List α) (s : State)
    (h : ∀ t a, (f t a).strokes = t.strokes) : (l.foldl f s).strokes = s.strokes := foldl_keeps (fun t => t.strokes) f h l s
@[simp] theorem foldl_banks {α : Type} (f : State → α → State) (l : List α) (s : State)
    (h : ∀ t a, (f t a).banks = t.banks) : (l.foldl f s).banks = s.banks := foldl_keeps (fun t => t.banks) f h l s
@[simp] theorem foldl_refresh {α : Type} (f : State → α → State) (l : List α) (s : State)
    (h : ∀ t a, (f t a).refresh = t.refresh) : (l.foldl f s).refresh = s.refresh := foldl_keeps (fun t => t.refresh) f h l s
@[simp] theorem foldl_regions {α : Type} (f : State → α → State) (l : List α) (s : State)
    (h : ∀ t a, (f t a).regions = t.regions) : (l.foldl f s).regions = s.regions := foldl_keeps (fun t => t.regions) f h l s
@[simp] theorem foldl_domains {α : Type} (f : State → α → State) (l : List α) (s : State)
    (h : ∀ t a, (f t a).domains = t.domains) : (l.foldl f s).domains = s.domains := foldl_keeps (fun t => t.domains) f h l s
@[simp] theorem foldl_arrayMode {α : Type} (f : State → α → State) (l : List α) (s : State)
    (h : ∀ t a, (f t a).arrayMode = t.arrayMode) : (l.foldl f s).arrayMode = s.arrayMode := foldl_keeps (fun t => t.arrayMode) f h l s
@[simp] theorem foldl_array {α : Type} (f : State → α → State) (l : List α) (s : State)
    (h : ∀ t a, (f t a).array = t.array) : (l.foldl f s).array = s.array := foldl_keeps (fun t => t.array) f h l s
@[simp] theorem foldl_pending {α : Type} (f : State → α → State) (l : List α) (s : State)
    (h : ∀ t a, (f t a).pending = t.pending) : (l.foldl f s).pending = s.pending := foldl_keeps (fun t => t.pending) f h l s
@[simp] theorem foldl_arrayMode_forcedSleep {α : Type} (f : State → α → State) (l : List α) (s : State)
    (h : ∀ t a, (f t a).arrayMode.forcedSleep = t.arrayMode.forcedSleep) : (l.foldl f s).arrayMode.forcedSleep = s.arrayMode.forcedSleep := foldl_keeps (fun t => t.arrayMode.forcedSleep) f h l s
@[simp] theorem foldl_arrayMode_mode {α : Type} (f : State → α → State) (l : List α) (s : State)
    (h : ∀ t a, (f t a).arrayMode.mode = t.arrayMode.mode) : (l.foldl f s).arrayMode.mode = s.arrayMode.mode := foldl_keeps (fun t => t.arrayMode.mode) f h l s
@[simp] theorem foldl_arrayMode_wakeTimer {α : Type} (f : State → α → State) (l : List α) (s : State)
    (h : ∀ t a, (f t a).arrayMode.wakeTimer = t.arrayMode.wakeTimer) : (l.foldl f s).arrayMode.wakeTimer = s.arrayMode.wakeTimer := foldl_keeps (fun t => t.arrayMode.wakeTimer) f h l s
@[simp] theorem foldl_channel_nextTag {α : Type} (f : State → α → State) (l : List α) (s : State)
    (h : ∀ t a, (f t a).channel.nextTag = t.channel.nextTag) : (l.foldl f s).channel.nextTag = s.channel.nextTag := foldl_keeps (fun t => t.channel.nextTag) f h l s
@[simp] theorem foldl_channel_outstanding {α : Type} (f : State → α → State) (l : List α) (s : State)
    (h : ∀ t a, (f t a).channel.outstanding = t.channel.outstanding) : (l.foldl f s).channel.outstanding = s.channel.outstanding := foldl_keeps (fun t => t.channel.outstanding) f h l s
@[simp] theorem foldl_domains_states {α : Type} (f : State → α → State) (l : List α) (s : State)
    (h : ∀ t a, (f t a).domains.states = t.domains.states) : (l.foldl f s).domains.states = s.domains.states := foldl_keeps (fun t => t.domains.states) f h l s
@[simp] theorem foldl_engine_haltReason {α : Type} (f : State → α → State) (l : List α) (s : State)
    (h : ∀ t a, (f t a).engine.haltReason = t.engine.haltReason) : (l.foldl f s).engine.haltReason = s.engine.haltReason := foldl_keeps (fun t => t.engine.haltReason) f h l s
@[simp] theorem foldl_engine_state {α : Type} (f : State → α → State) (l : List α) (s : State)
    (h : ∀ t a, (f t a).engine.state = t.engine.state) : (l.foldl f s).engine.state = s.engine.state := foldl_keeps (fun t => t.engine.state) f h l s
@[simp] theorem foldl_intake_expected {α : Type} (f : State → α → State) (l : List α) (s : State)
    (h : ∀ t a, (f t a).intake.expected = t.intake.expected) : (l.foldl f s).intake.expected = s.intake.expected := foldl_keeps (fun t => t.intake.expected) f h l s
@[simp] theorem foldl_intake_records {α : Type} (f : State → α → State) (l : List α) (s : State)
    (h : ∀ t a, (f t a).intake.records = t.intake.records) : (l.foldl f s).intake.records = s.intake.records := foldl_keeps (fun t => t.intake.records) f h l s
@[simp] theorem foldl_pool_cancelList {α : Type} (f : State → α → State) (l : List α) (s : State)
    (h : ∀ t a, (f t a).pool.cancelList = t.pool.cancelList) : (l.foldl f s).pool.cancelList = s.pool.cancelList := foldl_keeps (fun t => t.pool.cancelList) f h l s
@[simp] theorem foldl_pool_finished {α : Type} (f : State → α → State) (l : List α) (s : State)
    (h : ∀ t a, (f t a).pool.finished = t.pool.finished) : (l.foldl f s).pool.finished = s.pool.finished := foldl_keeps (fun t => t.pool.finished) f h l s
@[simp] theorem foldl_pool_taken {α : Type} (f : State → α → State) (l : List α) (s : State)
    (h : ∀ t a, (f t a).pool.taken = t.pool.taken) : (l.foldl f s).pool.taken = s.pool.taken := foldl_keeps (fun t => t.pool.taken) f h l s
@[simp] theorem foldl_port_cancelStatus {α : Type} (f : State → α → State) (l : List α) (s : State)
    (h : ∀ t a, (f t a).port.cancelStatus = t.port.cancelStatus) : (l.foldl f s).port.cancelStatus = s.port.cancelStatus := foldl_keeps (fun t => t.port.cancelStatus) f h l s
@[simp] theorem foldl_port_enable {α : Type} (f : State → α → State) (l : List α) (s : State)
    (h : ∀ t a, (f t a).port.enable = t.port.enable) : (l.foldl f s).port.enable = s.port.enable := foldl_keeps (fun t => t.port.enable) f h l s
@[simp] theorem foldl_port_exbase {α : Type} (f : State → α → State) (l : List α) (s : State)
    (h : ∀ t a, (f t a).port.exbase = t.port.exbase) : (l.foldl f s).port.exbase = s.port.exbase := foldl_keeps (fun t => t.port.exbase) f h l s
@[simp] theorem foldl_port_idleSleep {α : Type} (f : State → α → State) (l : List α) (s : State)
    (h : ∀ t a, (f t a).port.idleSleep = t.port.idleSleep) : (l.foldl f s).port.idleSleep = s.port.idleSleep := foldl_keeps (fun t => t.port.idleSleep) f h l s
@[simp] theorem foldl_port_poll {α : Type} (f : State → α → State) (l : List α) (s : State)
    (h : ∀ t a, (f t a).port.poll = t.port.poll) : (l.foldl f s).port.poll = s.port.poll := foldl_keeps (fun t => t.port.poll) f h l s
@[simp] theorem foldl_port_resetHeld {α : Type} (f : State → α → State) (l : List α) (s : State)
    (h : ∀ t a, (f t a).port.resetHeld = t.port.resetHeld) : (l.foldl f s).port.resetHeld = s.port.resetHeld := foldl_keeps (fun t => t.port.resetHeld) f h l s
@[simp] theorem foldl_port_response {α : Type} (f : State → α → State) (l : List α) (s : State)
    (h : ∀ t a, (f t a).port.response = t.port.response) : (l.foldl f s).port.response = s.port.response := foldl_keeps (fun t => t.port.response) f h l s
@[simp] theorem foldl_refresh_breaches {α : Type} (f : State → α → State) (l : List α) (s : State)
    (h : ∀ t a, (f t a).refresh.breaches = t.refresh.breaches) : (l.foldl f s).refresh.breaches = s.refresh.breaches := foldl_keeps (fun t => t.refresh.breaches) f h l s
@[simp] theorem foldl_refresh_sampleTimer {α : Type} (f : State → α → State) (l : List α) (s : State)
    (h : ∀ t a, (f t a).refresh.sampleTimer = t.refresh.sampleTimer) : (l.foldl f s).refresh.sampleTimer = s.refresh.sampleTimer := foldl_keeps (fun t => t.refresh.sampleTimer) f h l s
@[simp] theorem foldl_refresh_tempClass {α : Type} (f : State → α → State) (l : List α) (s : State)
    (h : ∀ t a, (f t a).refresh.tempClass = t.refresh.tempClass) : (l.foldl f s).refresh.tempClass = s.refresh.tempClass := foldl_keeps (fun t => t.refresh.tempClass) f h l s
@[simp] theorem foldl_reporting_released {α : Type} (f : State → α → State) (l : List α) (s : State)
    (h : ∀ t a, (f t a).reporting.released = t.reporting.released) : (l.foldl f s).reporting.released = s.reporting.released := foldl_keeps (fun t => t.reporting.released) f h l s
@[simp] theorem foldl_strokes_lastGranted {α : Type} (f : State → α → State) (l : List α) (s : State)
    (h : ∀ t a, (f t a).strokes.lastGranted = t.strokes.lastGranted) : (l.foldl f s).strokes.lastGranted = s.strokes.lastGranted := foldl_keeps (fun t => t.strokes.lastGranted) f h l s
@[simp] theorem foldl_strokes_records {α : Type} (f : State → α → State) (l : List α) (s : State)
    (h : ∀ t a, (f t a).strokes.records = t.strokes.records) : (l.foldl f s).strokes.records = s.strokes.records := foldl_keeps (fun t => t.strokes.records) f h l s

/-! ## What the plain updates leave -/

@[simp] theorem setNotify_frame (s : State) :
    (setNotify s).engine = s.engine ∧ (setNotify s).channel = s.channel ∧ (setNotify s).reporting = s.reporting ∧ (setNotify s).intake = s.intake ∧
      (setNotify s).pool = s.pool ∧ (setNotify s).table = s.table ∧ (setNotify s).strokes = s.strokes ∧ (setNotify s).banks = s.banks ∧
      (setNotify s).refresh = s.refresh ∧ (setNotify s).regions = s.regions ∧ (setNotify s).domains = s.domains ∧
      (setNotify s).arrayMode = s.arrayMode ∧ (setNotify s).array = s.array ∧ (setNotify s).pending = s.pending ∧
      (setNotify s).port.enable = s.port.enable ∧ (setNotify s).port.poll = s.port.poll ∧ (setNotify s).port.idleSleep = s.port.idleSleep ∧
      (setNotify s).port.response = s.port.response ∧ (setNotify s).port.exbase = s.port.exbase ∧ (setNotify s).port.resetHeld = s.port.resetHeld ∧
      (setNotify s).port.cancelStatus = s.port.cancelStatus := by
  simp [setNotify]

@[simp] theorem setAlert_frame (s : State) :
    (setAlert s).engine = s.engine ∧ (setAlert s).channel = s.channel ∧ (setAlert s).reporting = s.reporting ∧ (setAlert s).intake = s.intake ∧
      (setAlert s).pool = s.pool ∧ (setAlert s).table = s.table ∧ (setAlert s).strokes = s.strokes ∧ (setAlert s).banks = s.banks ∧
      (setAlert s).refresh = s.refresh ∧ (setAlert s).regions = s.regions ∧ (setAlert s).domains = s.domains ∧ (setAlert s).arrayMode = s.arrayMode ∧
      (setAlert s).array = s.array ∧ (setAlert s).pending = s.pending ∧ (setAlert s).port.enable = s.port.enable ∧
      (setAlert s).port.poll = s.port.poll ∧ (setAlert s).port.idleSleep = s.port.idleSleep ∧ (setAlert s).port.response = s.port.response ∧
      (setAlert s).port.exbase = s.port.exbase ∧ (setAlert s).port.resetHeld = s.port.resetHeld ∧ (setAlert s).port.cancelStatus = s.port.cancelStatus := by
  simp [setAlert]

@[simp] theorem setFault_frame (s : State) :
    (setFault s).engine = s.engine ∧ (setFault s).channel = s.channel ∧ (setFault s).reporting = s.reporting ∧ (setFault s).intake = s.intake ∧
      (setFault s).pool = s.pool ∧ (setFault s).table = s.table ∧ (setFault s).strokes = s.strokes ∧ (setFault s).banks = s.banks ∧
      (setFault s).refresh = s.refresh ∧ (setFault s).regions = s.regions ∧ (setFault s).domains = s.domains ∧ (setFault s).arrayMode = s.arrayMode ∧
      (setFault s).array = s.array ∧ (setFault s).pending = s.pending ∧ (setFault s).port.enable = s.port.enable ∧
      (setFault s).port.poll = s.port.poll ∧ (setFault s).port.idleSleep = s.port.idleSleep ∧ (setFault s).port.response = s.port.response ∧
      (setFault s).port.exbase = s.port.exbase ∧ (setFault s).port.resetHeld = s.port.resetHeld ∧ (setFault s).port.cancelStatus = s.port.cancelStatus := by
  simp [setFault]

@[simp] theorem setDrained_frame (s : State) :
    (setDrained s).engine = s.engine ∧ (setDrained s).channel = s.channel ∧ (setDrained s).reporting = s.reporting ∧
      (setDrained s).intake = s.intake ∧ (setDrained s).pool = s.pool ∧ (setDrained s).table = s.table ∧ (setDrained s).strokes = s.strokes ∧
      (setDrained s).banks = s.banks ∧ (setDrained s).refresh = s.refresh ∧ (setDrained s).regions = s.regions ∧ (setDrained s).domains = s.domains ∧
      (setDrained s).arrayMode = s.arrayMode ∧ (setDrained s).array = s.array ∧ (setDrained s).pending = s.pending ∧
      (setDrained s).port.enable = s.port.enable ∧ (setDrained s).port.poll = s.port.poll ∧ (setDrained s).port.idleSleep = s.port.idleSleep ∧
      (setDrained s).port.response = s.port.response ∧ (setDrained s).port.exbase = s.port.exbase ∧
      (setDrained s).port.resetHeld = s.port.resetHeld ∧ (setDrained s).port.cancelStatus = s.port.cancelStatus := by
  simp [setDrained]

@[simp] theorem placeRequest_frame (r : Request) (s : State) :
    (placeRequest r s).port = s.port ∧ (placeRequest r s).engine = s.engine ∧ (placeRequest r s).reporting = s.reporting ∧
      (placeRequest r s).intake = s.intake ∧ (placeRequest r s).pool = s.pool ∧ (placeRequest r s).table = s.table ∧
      (placeRequest r s).strokes = s.strokes ∧ (placeRequest r s).banks = s.banks ∧ (placeRequest r s).refresh = s.refresh ∧
      (placeRequest r s).regions = s.regions ∧ (placeRequest r s).domains = s.domains ∧ (placeRequest r s).arrayMode = s.arrayMode ∧
      (placeRequest r s).array = s.array ∧ (placeRequest r s).pending = s.pending ∧ (placeRequest r s).channel.outstanding = s.channel.outstanding ∧
      (placeRequest r s).channel.nextTag = s.channel.nextTag := by
  simp [placeRequest]

@[simp] theorem setSlot_frame (i : SlotId) (o : Option PoolOrder) (s : State) :
    (setSlot i o s).port = s.port ∧ (setSlot i o s).engine = s.engine ∧ (setSlot i o s).channel = s.channel ∧
      (setSlot i o s).reporting = s.reporting ∧ (setSlot i o s).intake = s.intake ∧ (setSlot i o s).table = s.table ∧
      (setSlot i o s).strokes = s.strokes ∧ (setSlot i o s).banks = s.banks ∧ (setSlot i o s).refresh = s.refresh ∧
      (setSlot i o s).regions = s.regions ∧ (setSlot i o s).domains = s.domains ∧ (setSlot i o s).arrayMode = s.arrayMode ∧
      (setSlot i o s).array = s.array ∧ (setSlot i o s).pending = s.pending ∧ (setSlot i o s).pool.taken = s.pool.taken ∧
      (setSlot i o s).pool.finished = s.pool.finished ∧ (setSlot i o s).pool.cancelList = s.pool.cancelList := by
  simp [setSlot]

@[simp] theorem setEntry_frame (l : Lane) (e : Option TableEntry) (s : State) :
    (setEntry l e s).port = s.port ∧ (setEntry l e s).engine = s.engine ∧ (setEntry l e s).channel = s.channel ∧
      (setEntry l e s).reporting = s.reporting ∧ (setEntry l e s).intake = s.intake ∧ (setEntry l e s).pool = s.pool ∧
      (setEntry l e s).strokes = s.strokes ∧ (setEntry l e s).banks = s.banks ∧ (setEntry l e s).refresh = s.refresh ∧
      (setEntry l e s).regions = s.regions ∧ (setEntry l e s).domains = s.domains ∧ (setEntry l e s).arrayMode = s.arrayMode ∧
      (setEntry l e s).array = s.array ∧ (setEntry l e s).pending = s.pending := by
  simp [setEntry]

@[simp] theorem setGenerator_frame (l : Lane) (g : Option Generator) (s : State) :
    (setGenerator l g s).port = s.port ∧ (setGenerator l g s).engine = s.engine ∧ (setGenerator l g s).channel = s.channel ∧
      (setGenerator l g s).reporting = s.reporting ∧ (setGenerator l g s).intake = s.intake ∧ (setGenerator l g s).pool = s.pool ∧
      (setGenerator l g s).table = s.table ∧ (setGenerator l g s).banks = s.banks ∧ (setGenerator l g s).refresh = s.refresh ∧
      (setGenerator l g s).regions = s.regions ∧ (setGenerator l g s).domains = s.domains ∧ (setGenerator l g s).arrayMode = s.arrayMode ∧
      (setGenerator l g s).array = s.array ∧ (setGenerator l g s).pending = s.pending ∧ (setGenerator l g s).strokes.records = s.strokes.records ∧
      (setGenerator l g s).strokes.lastGranted = s.strokes.lastGranted := by
  simp [setGenerator]

@[simp] theorem setBank_frame (b : BankId) (k : Bank) (s : State) :
    (setBank b k s).port = s.port ∧ (setBank b k s).engine = s.engine ∧ (setBank b k s).channel = s.channel ∧
      (setBank b k s).reporting = s.reporting ∧ (setBank b k s).intake = s.intake ∧ (setBank b k s).pool = s.pool ∧ (setBank b k s).table = s.table ∧
      (setBank b k s).strokes = s.strokes ∧ (setBank b k s).refresh = s.refresh ∧ (setBank b k s).regions = s.regions ∧
      (setBank b k s).domains = s.domains ∧ (setBank b k s).arrayMode = s.arrayMode ∧ (setBank b k s).array = s.array ∧
      (setBank b k s).pending = s.pending := by
  simp [setBank]

@[simp] theorem setRefresh_frame (b : BankId) (r : RefreshBank) (s : State) :
    (setRefresh b r s).port = s.port ∧ (setRefresh b r s).engine = s.engine ∧ (setRefresh b r s).channel = s.channel ∧
      (setRefresh b r s).reporting = s.reporting ∧ (setRefresh b r s).intake = s.intake ∧ (setRefresh b r s).pool = s.pool ∧
      (setRefresh b r s).table = s.table ∧ (setRefresh b r s).strokes = s.strokes ∧ (setRefresh b r s).banks = s.banks ∧
      (setRefresh b r s).regions = s.regions ∧ (setRefresh b r s).domains = s.domains ∧ (setRefresh b r s).arrayMode = s.arrayMode ∧
      (setRefresh b r s).array = s.array ∧ (setRefresh b r s).pending = s.pending ∧ (setRefresh b r s).refresh.tempClass = s.refresh.tempClass ∧
      (setRefresh b r s).refresh.sampleTimer = s.refresh.sampleTimer ∧ (setRefresh b r s).refresh.breaches = s.refresh.breaches := by
  simp [setRefresh]

@[simp] theorem mapRegions_frame (f : RegionId → Region → Region) (s : State) :
    (mapRegions f s).port = s.port ∧ (mapRegions f s).engine = s.engine ∧ (mapRegions f s).channel = s.channel ∧
      (mapRegions f s).reporting = s.reporting ∧ (mapRegions f s).intake = s.intake ∧ (mapRegions f s).pool = s.pool ∧
      (mapRegions f s).table = s.table ∧ (mapRegions f s).strokes = s.strokes ∧ (mapRegions f s).banks = s.banks ∧
      (mapRegions f s).refresh = s.refresh ∧ (mapRegions f s).domains = s.domains ∧ (mapRegions f s).arrayMode = s.arrayMode ∧
      (mapRegions f s).array = s.array ∧ (mapRegions f s).pending = s.pending := by
  simp [mapRegions]

@[simp] theorem removeStroke_frame (r : StrokeRecord) (s : State) :
    (removeStroke r s).port = s.port ∧ (removeStroke r s).engine = s.engine ∧ (removeStroke r s).channel = s.channel ∧
      (removeStroke r s).reporting = s.reporting ∧ (removeStroke r s).intake = s.intake ∧ (removeStroke r s).pool = s.pool ∧
      (removeStroke r s).table = s.table ∧ (removeStroke r s).banks = s.banks ∧ (removeStroke r s).refresh = s.refresh ∧
      (removeStroke r s).regions = s.regions ∧ (removeStroke r s).domains = s.domains ∧ (removeStroke r s).arrayMode = s.arrayMode ∧
      (removeStroke r s).array = s.array ∧ (removeStroke r s).pending = s.pending ∧ (removeStroke r s).strokes.lastGranted = s.strokes.lastGranted := by
  simp [removeStroke]

@[simp] theorem setRegion_frame (r : RegionId) (v : Region) (s : State) :
    (setRegion r v s).port = s.port ∧ (setRegion r v s).engine = s.engine ∧ (setRegion r v s).channel = s.channel ∧
      (setRegion r v s).reporting = s.reporting ∧ (setRegion r v s).intake = s.intake ∧ (setRegion r v s).pool = s.pool ∧
      (setRegion r v s).table = s.table ∧ (setRegion r v s).strokes = s.strokes ∧ (setRegion r v s).banks = s.banks ∧
      (setRegion r v s).refresh = s.refresh ∧ (setRegion r v s).domains = s.domains ∧ (setRegion r v s).arrayMode = s.arrayMode ∧
      (setRegion r v s).array = s.array ∧ (setRegion r v s).pending = s.pending := by
  simp [setRegion]

@[simp] theorem addStroke_frame (r : StrokeRecord) (s : State) :
    (addStroke r s).port = s.port ∧ (addStroke r s).engine = s.engine ∧ (addStroke r s).channel = s.channel ∧
      (addStroke r s).reporting = s.reporting ∧ (addStroke r s).intake = s.intake ∧ (addStroke r s).pool = s.pool ∧ (addStroke r s).table = s.table ∧
      (addStroke r s).banks = s.banks ∧ (addStroke r s).refresh = s.refresh ∧ (addStroke r s).regions = s.regions ∧
      (addStroke r s).domains = s.domains ∧ (addStroke r s).arrayMode = s.arrayMode ∧ (addStroke r s).array = s.array ∧
      (addStroke r s).pending = s.pending ∧ (addStroke r s).strokes.lastGranted = s.strokes.lastGranted := by
  simp [addStroke]

@[simp] theorem popRequest_frame (s : State) :
    (popRequest s).port = s.port ∧ (popRequest s).engine = s.engine ∧ (popRequest s).channel = s.channel ∧ (popRequest s).reporting = s.reporting ∧
      (popRequest s).intake = s.intake ∧ (popRequest s).pool = s.pool ∧ (popRequest s).table = s.table ∧ (popRequest s).strokes = s.strokes ∧
      (popRequest s).banks = s.banks ∧ (popRequest s).refresh = s.refresh ∧ (popRequest s).regions = s.regions ∧
      (popRequest s).arrayMode = s.arrayMode ∧ (popRequest s).array = s.array ∧ (popRequest s).pending = s.pending ∧
      (popRequest s).domains.states = s.domains.states := by
  simp [popRequest]

@[simp] theorem placeEntry_frame (l : Lane) (i : SlotId) (f : Option Footprint) (w : Option WaitReason) (s : State) :
    (placeEntry l i f w s).port = s.port ∧ (placeEntry l i f w s).engine = s.engine ∧ (placeEntry l i f w s).channel = s.channel ∧
      (placeEntry l i f w s).reporting = s.reporting ∧ (placeEntry l i f w s).intake = s.intake ∧ (placeEntry l i f w s).pool = s.pool ∧
      (placeEntry l i f w s).strokes = s.strokes ∧ (placeEntry l i f w s).banks = s.banks ∧ (placeEntry l i f w s).refresh = s.refresh ∧
      (placeEntry l i f w s).regions = s.regions ∧ (placeEntry l i f w s).domains = s.domains ∧ (placeEntry l i f w s).arrayMode = s.arrayMode ∧
      (placeEntry l i f w s).array = s.array ∧ (placeEntry l i f w s).pending = s.pending := by
  simp [placeEntry]

@[simp] theorem setCancelStatus_frame (c : CancelStatus) (s : State) :
    (setCancelStatus c s).engine = s.engine ∧ (setCancelStatus c s).channel = s.channel ∧ (setCancelStatus c s).reporting = s.reporting ∧
      (setCancelStatus c s).intake = s.intake ∧ (setCancelStatus c s).pool = s.pool ∧ (setCancelStatus c s).table = s.table ∧
      (setCancelStatus c s).strokes = s.strokes ∧ (setCancelStatus c s).banks = s.banks ∧ (setCancelStatus c s).refresh = s.refresh ∧
      (setCancelStatus c s).regions = s.regions ∧ (setCancelStatus c s).domains = s.domains ∧ (setCancelStatus c s).arrayMode = s.arrayMode ∧
      (setCancelStatus c s).array = s.array ∧ (setCancelStatus c s).pending = s.pending ∧ (setCancelStatus c s).port.enable = s.port.enable ∧
      (setCancelStatus c s).port.poll = s.port.poll ∧ (setCancelStatus c s).port.idleSleep = s.port.idleSleep ∧
      (setCancelStatus c s).port.response = s.port.response ∧ (setCancelStatus c s).port.exbase = s.port.exbase ∧
      (setCancelStatus c s).port.resetHeld = s.port.resetHeld := by
  simp [setCancelStatus]

@[simp] theorem withdrawRequest_frame (n : OrderName) (s : State) :
    (withdrawRequest n s).port = s.port ∧ (withdrawRequest n s).engine = s.engine ∧ (withdrawRequest n s).channel = s.channel ∧
      (withdrawRequest n s).reporting = s.reporting ∧ (withdrawRequest n s).intake = s.intake ∧ (withdrawRequest n s).pool = s.pool ∧
      (withdrawRequest n s).table = s.table ∧ (withdrawRequest n s).strokes = s.strokes ∧ (withdrawRequest n s).banks = s.banks ∧
      (withdrawRequest n s).refresh = s.refresh ∧ (withdrawRequest n s).regions = s.regions ∧ (withdrawRequest n s).arrayMode = s.arrayMode ∧
      (withdrawRequest n s).array = s.array ∧ (withdrawRequest n s).pending = s.pending ∧ (withdrawRequest n s).domains.states = s.domains.states := by
  simp [withdrawRequest]

@[simp] theorem intakeOff_frame (s : State) :
    (intakeOff s).port = s.port ∧ (intakeOff s).engine = s.engine ∧ (intakeOff s).channel = s.channel ∧ (intakeOff s).reporting = s.reporting ∧
      (intakeOff s).pool = s.pool ∧ (intakeOff s).table = s.table ∧ (intakeOff s).strokes = s.strokes ∧ (intakeOff s).banks = s.banks ∧
      (intakeOff s).refresh = s.refresh ∧ (intakeOff s).regions = s.regions ∧ (intakeOff s).domains = s.domains ∧
      (intakeOff s).arrayMode = s.arrayMode ∧ (intakeOff s).array = s.array ∧ (intakeOff s).pending = s.pending ∧
      (intakeOff s).intake.expected = s.intake.expected ∧ (intakeOff s).intake.records = s.intake.records := by
  simp [intakeOff]

@[simp] theorem reachDisabled_frame (s : State) :
    (reachDisabled s).channel = s.channel ∧ (reachDisabled s).reporting = s.reporting ∧ (reachDisabled s).table = s.table ∧
      (reachDisabled s).strokes = s.strokes ∧ (reachDisabled s).banks = s.banks ∧ (reachDisabled s).refresh = s.refresh ∧
      (reachDisabled s).regions = s.regions ∧ (reachDisabled s).domains = s.domains ∧ (reachDisabled s).arrayMode = s.arrayMode ∧
      (reachDisabled s).array = s.array ∧ (reachDisabled s).pending = s.pending ∧ (reachDisabled s).port.enable = s.port.enable ∧
      (reachDisabled s).port.poll = s.port.poll ∧ (reachDisabled s).port.idleSleep = s.port.idleSleep ∧
      (reachDisabled s).port.response = s.port.response ∧ (reachDisabled s).port.exbase = s.port.exbase ∧
      (reachDisabled s).port.resetHeld = s.port.resetHeld ∧ (reachDisabled s).port.cancelStatus = s.port.cancelStatus ∧
      (reachDisabled s).engine.haltReason = s.engine.haltReason ∧ (reachDisabled s).intake.expected = s.intake.expected ∧
      (reachDisabled s).pool.taken = s.pool.taken ∧ (reachDisabled s).pool.finished = s.pool.finished := by
  simp [reachDisabled]

@[simp] theorem enterHalted_frame (reason : HaltReason) (s : State) :
    (enterHalted reason s).channel = s.channel ∧ (enterHalted reason s).reporting = s.reporting ∧ (enterHalted reason s).intake = s.intake ∧
      (enterHalted reason s).pool = s.pool ∧ (enterHalted reason s).table = s.table ∧ (enterHalted reason s).strokes = s.strokes ∧
      (enterHalted reason s).banks = s.banks ∧ (enterHalted reason s).refresh = s.refresh ∧ (enterHalted reason s).regions = s.regions ∧
      (enterHalted reason s).domains = s.domains ∧ (enterHalted reason s).arrayMode = s.arrayMode ∧ (enterHalted reason s).array = s.array ∧
      (enterHalted reason s).pending = s.pending ∧ (enterHalted reason s).port.enable = s.port.enable ∧
      (enterHalted reason s).port.poll = s.port.poll ∧ (enterHalted reason s).port.idleSleep = s.port.idleSleep ∧
      (enterHalted reason s).port.response = s.port.response ∧ (enterHalted reason s).port.exbase = s.port.exbase ∧
      (enterHalted reason s).port.resetHeld = s.port.resetHeld ∧ (enterHalted reason s).port.cancelStatus = s.port.cancelStatus := by
  simp [enterHalted]

@[simp] theorem setNudge_frame (s : State) :
    (setNudge s).port = s.port ∧ (setNudge s).engine = s.engine ∧ (setNudge s).channel = s.channel ∧ (setNudge s).reporting = s.reporting ∧
      (setNudge s).pool = s.pool ∧ (setNudge s).table = s.table ∧ (setNudge s).strokes = s.strokes ∧ (setNudge s).banks = s.banks ∧
      (setNudge s).refresh = s.refresh ∧ (setNudge s).regions = s.regions ∧ (setNudge s).domains = s.domains ∧ (setNudge s).arrayMode = s.arrayMode ∧
      (setNudge s).array = s.array ∧ (setNudge s).pending = s.pending ∧ (setNudge s).intake.expected = s.intake.expected ∧
      (setNudge s).intake.records = s.intake.records := by
  simp [setNudge]

@[simp] theorem setTarget_frame (p : Word) (s : State) :
    (setTarget p s).port = s.port ∧ (setTarget p s).engine = s.engine ∧ (setTarget p s).channel = s.channel ∧
      (setTarget p s).reporting = s.reporting ∧ (setTarget p s).pool = s.pool ∧ (setTarget p s).table = s.table ∧
      (setTarget p s).strokes = s.strokes ∧ (setTarget p s).banks = s.banks ∧ (setTarget p s).refresh = s.refresh ∧
      (setTarget p s).regions = s.regions ∧ (setTarget p s).domains = s.domains ∧ (setTarget p s).arrayMode = s.arrayMode ∧
      (setTarget p s).array = s.array ∧ (setTarget p s).pending = s.pending ∧ (setTarget p s).intake.expected = s.intake.expected ∧
      (setTarget p s).intake.records = s.intake.records := by
  simp [setTarget]

@[simp] theorem enterPage_frame (s : State) :
    (enterPage s).port = s.port ∧ (enterPage s).engine = s.engine ∧ (enterPage s).channel = s.channel ∧ (enterPage s).reporting = s.reporting ∧
      (enterPage s).pool = s.pool ∧ (enterPage s).table = s.table ∧ (enterPage s).strokes = s.strokes ∧ (enterPage s).banks = s.banks ∧
      (enterPage s).refresh = s.refresh ∧ (enterPage s).regions = s.regions ∧ (enterPage s).domains = s.domains ∧
      (enterPage s).arrayMode = s.arrayMode ∧ (enterPage s).array = s.array ∧ (enterPage s).pending = s.pending ∧
      (enterPage s).intake.expected = s.intake.expected := by
  simp [enterPage]

@[simp] theorem leavePool_frame (i : SlotId) (o : PoolOrder) (s : State) :
    (leavePool i o s).port = s.port ∧ (leavePool i o s).engine = s.engine ∧ (leavePool i o s).channel = s.channel ∧
      (leavePool i o s).table = s.table ∧ (leavePool i o s).strokes = s.strokes ∧ (leavePool i o s).banks = s.banks ∧
      (leavePool i o s).refresh = s.refresh ∧ (leavePool i o s).regions = s.regions ∧ (leavePool i o s).domains = s.domains ∧
      (leavePool i o s).arrayMode = s.arrayMode ∧ (leavePool i o s).array = s.array ∧ (leavePool i o s).pending = s.pending ∧
      (leavePool i o s).reporting.released = s.reporting.released ∧ (leavePool i o s).intake.expected = s.intake.expected := by
  simp [leavePool]

@[simp] theorem dropOldest_frame (s : State) :
    (dropOldest s).port = s.port ∧ (dropOldest s).engine = s.engine ∧ (dropOldest s).channel = s.channel ∧ (dropOldest s).pool = s.pool ∧
      (dropOldest s).table = s.table ∧ (dropOldest s).strokes = s.strokes ∧ (dropOldest s).banks = s.banks ∧ (dropOldest s).refresh = s.refresh ∧
      (dropOldest s).regions = s.regions ∧ (dropOldest s).domains = s.domains ∧ (dropOldest s).arrayMode = s.arrayMode ∧
      (dropOldest s).array = s.array ∧ (dropOldest s).pending = s.pending ∧ (dropOldest s).intake.expected = s.intake.expected := by
  simp [dropOldest]

@[simp] theorem countBreach_frame (s : State) :
    (countBreach s).engine = s.engine ∧ (countBreach s).channel = s.channel ∧ (countBreach s).reporting = s.reporting ∧
      (countBreach s).intake = s.intake ∧ (countBreach s).pool = s.pool ∧ (countBreach s).table = s.table ∧ (countBreach s).strokes = s.strokes ∧
      (countBreach s).banks = s.banks ∧ (countBreach s).regions = s.regions ∧ (countBreach s).domains = s.domains ∧
      (countBreach s).arrayMode = s.arrayMode ∧ (countBreach s).array = s.array ∧ (countBreach s).pending = s.pending ∧
      (countBreach s).port.enable = s.port.enable ∧ (countBreach s).port.poll = s.port.poll ∧ (countBreach s).port.idleSleep = s.port.idleSleep ∧
      (countBreach s).port.response = s.port.response ∧ (countBreach s).port.exbase = s.port.exbase ∧
      (countBreach s).port.resetHeld = s.port.resetHeld ∧ (countBreach s).port.cancelStatus = s.port.cancelStatus ∧
      (countBreach s).refresh.tempClass = s.refresh.tempClass ∧ (countBreach s).refresh.sampleTimer = s.refresh.sampleTimer := by
  simp [countBreach]

/-! ## What the plain updates set -/

@[simp] theorem placeRequest_queue (r : Request) (s : State) : (placeRequest r s).channel.queue = s.channel.queue ++ [r] := rfl
@[simp] theorem setSlot_slots (i : SlotId) (o : Option PoolOrder) (s : State) : (setSlot i o s).pool.slots = s.pool.slots.set i o := rfl
@[simp] theorem setEntry_table (l : Lane) (e : Option TableEntry) (s : State) : (setEntry l e s).table = s.table.set l e := rfl
@[simp] theorem setGenerator_generators (l : Lane) (g : Option Generator) (s : State) :
    (setGenerator l g s).strokes.generators = s.strokes.generators.set l g := rfl
@[simp] theorem setBank_banks (b : BankId) (k : Bank) (s : State) : (setBank b k s).banks = s.banks.set b k := rfl
@[simp] theorem setRefresh_banks (b : BankId) (r : RefreshBank) (s : State) :
    (setRefresh b r s).refresh.banks = s.refresh.banks.set b r := rfl
@[simp] theorem mapRegions_regions (f : RegionId → Region → Region) (s : State) :
    (mapRegions f s).regions = Vector.ofFn fun r : RegionId => f r s.regions[r] := rfl
@[simp] theorem setRegion_regions (r : RegionId) (v : Region) (s : State) : (setRegion r v s).regions = s.regions.set r v := rfl
@[simp] theorem addStroke_records (r : StrokeRecord) (s : State) : (addStroke r s).strokes.records = s.strokes.records ++ [r] := rfl
@[simp] theorem removeStroke_records (r : StrokeRecord) (s : State) :
    (removeStroke r s).strokes.records = s.strokes.records.filter fun x => !(x.id == r.id) := rfl
@[simp] theorem setNotify_port (s : State) : (setNotify s).port = { s.port with notifyPending := true } := rfl
@[simp] theorem setAlert_port (s : State) : (setAlert s).port = { s.port with alertPending := true } := rfl
@[simp] theorem setFault_port (s : State) : (setFault s).port = { s.port with faultPending := true } := rfl
@[simp] theorem setDrained_port (s : State) : (setDrained s).port = { s.port with drainedPending := true } := rfl
@[simp] theorem setCancelStatus_port (c : CancelStatus) (s : State) :
    (setCancelStatus c s).port = { s.port with cancelStatus := c } := rfl
@[simp] theorem enterHalted_engine (r : HaltReason) (s : State) :
    (enterHalted r s).engine = { state := .halted, haltReason := r } := rfl
@[simp] theorem reachDisabled_engine (s : State) : (reachDisabled s).engine = { s.engine with state := .disabled } := rfl

end Sys2Proof.Machine
end

