-- ==== Sys2Proof/Laws/Frames.lean ====
section
/-! SUPPORT. The frame of every shared operation: the blocks and fields of State it leaves as they are. -/

namespace Sys2Proof.Machine

@[simp] theorem requestHeaderUpdate_frame (s : State) :
    (requestHeaderUpdate s).port = s.port ∧ (requestHeaderUpdate s).engine = s.engine ∧ (requestHeaderUpdate s).intake = s.intake ∧
      (requestHeaderUpdate s).pool = s.pool ∧ (requestHeaderUpdate s).table = s.table ∧ (requestHeaderUpdate s).strokes = s.strokes ∧
      (requestHeaderUpdate s).banks = s.banks ∧ (requestHeaderUpdate s).refresh = s.refresh ∧ (requestHeaderUpdate s).regions = s.regions ∧
      (requestHeaderUpdate s).domains = s.domains ∧ (requestHeaderUpdate s).arrayMode = s.arrayMode ∧ (requestHeaderUpdate s).array = s.array ∧
      (requestHeaderUpdate s).pending = s.pending ∧ (requestHeaderUpdate s).channel.outstanding = s.channel.outstanding ∧
      (requestHeaderUpdate s).channel.nextTag = s.channel.nextTag ∧ (requestHeaderUpdate s).reporting.released = s.reporting.released := by
  unfold requestHeaderUpdate
  (try dsimp only)
  (repeat' split) <;> simp_all

@[simp] theorem updateLane_frame (l : Lane) (f : PoolOrder → PoolOrder) (g : TableEntry → TableEntry) (s : State) :
    (updateLane l f g s).port = s.port ∧ (updateLane l f g s).engine = s.engine ∧ (updateLane l f g s).channel = s.channel ∧
      (updateLane l f g s).reporting = s.reporting ∧ (updateLane l f g s).intake = s.intake ∧ (updateLane l f g s).strokes = s.strokes ∧
      (updateLane l f g s).banks = s.banks ∧ (updateLane l f g s).refresh = s.refresh ∧ (updateLane l f g s).regions = s.regions ∧
      (updateLane l f g s).domains = s.domains ∧ (updateLane l f g s).arrayMode = s.arrayMode ∧ (updateLane l f g s).array = s.array ∧
      (updateLane l f g s).pending = s.pending ∧ (updateLane l f g s).pool.taken = s.pool.taken ∧
      (updateLane l f g s).pool.finished = s.pool.finished ∧ (updateLane l f g s).pool.cancelList = s.pool.cancelList := by
  unfold updateLane
  (try dsimp only)
  (repeat' split) <;> simp_all

@[simp] theorem issueEffect_frame (r : Request) (s : State) :
    (issueEffect r s).port = s.port ∧ (issueEffect r s).engine = s.engine ∧ (issueEffect r s).channel = s.channel ∧ (issueEffect r s).pool = s.pool ∧
      (issueEffect r s).table = s.table ∧ (issueEffect r s).strokes = s.strokes ∧ (issueEffect r s).banks = s.banks ∧
      (issueEffect r s).refresh = s.refresh ∧ (issueEffect r s).regions = s.regions ∧ (issueEffect r s).domains = s.domains ∧
      (issueEffect r s).arrayMode = s.arrayMode ∧ (issueEffect r s).array = s.array ∧ (issueEffect r s).pending = s.pending ∧
      (issueEffect r s).reporting.released = s.reporting.released ∧ (issueEffect r s).intake.expected = s.intake.expected ∧
      (issueEffect r s).intake.records = s.intake.records := by
  unfold issueEffect
  (try dsimp only)
  (repeat' split) <;> simp_all

@[simp] theorem issueRequest_frame (r : Request) (s : State) :
    (issueRequest r s).port = s.port ∧ (issueRequest r s).engine = s.engine ∧ (issueRequest r s).pool = s.pool ∧ (issueRequest r s).table = s.table ∧
      (issueRequest r s).strokes = s.strokes ∧ (issueRequest r s).banks = s.banks ∧ (issueRequest r s).refresh = s.refresh ∧
      (issueRequest r s).regions = s.regions ∧ (issueRequest r s).domains = s.domains ∧ (issueRequest r s).arrayMode = s.arrayMode ∧
      (issueRequest r s).array = s.array ∧ (issueRequest r s).pending = s.pending ∧ (issueRequest r s).reporting.released = s.reporting.released ∧
      (issueRequest r s).intake.expected = s.intake.expected ∧ (issueRequest r s).intake.records = s.intake.records := by
  unfold issueRequest
  (try dsimp only)
  (repeat' split) <;> simp_all

@[simp] theorem issueAccess_frame (s : State) :
    (issueAccess s).port = s.port ∧ (issueAccess s).engine = s.engine ∧ (issueAccess s).pool = s.pool ∧ (issueAccess s).table = s.table ∧
      (issueAccess s).strokes = s.strokes ∧ (issueAccess s).banks = s.banks ∧ (issueAccess s).refresh = s.refresh ∧
      (issueAccess s).regions = s.regions ∧ (issueAccess s).domains = s.domains ∧ (issueAccess s).arrayMode = s.arrayMode ∧
      (issueAccess s).array = s.array ∧ (issueAccess s).pending = s.pending ∧ (issueAccess s).reporting.released = s.reporting.released ∧
      (issueAccess s).intake.expected = s.intake.expected ∧ (issueAccess s).intake.records = s.intake.records := by
  unfold issueAccess
  (try dsimp only)
  (repeat' split) <;> simp_all

@[simp] theorem bankDecide_frame (b : BankId) (s : State) :
    (bankDecide b s).port = s.port ∧ (bankDecide b s).engine = s.engine ∧ (bankDecide b s).channel = s.channel ∧
      (bankDecide b s).reporting = s.reporting ∧ (bankDecide b s).intake = s.intake ∧ (bankDecide b s).pool = s.pool ∧
      (bankDecide b s).table = s.table ∧ (bankDecide b s).strokes = s.strokes ∧ (bankDecide b s).refresh = s.refresh ∧
      (bankDecide b s).regions = s.regions ∧ (bankDecide b s).domains = s.domains ∧ (bankDecide b s).arrayMode = s.arrayMode ∧
      (bankDecide b s).array = s.array ∧ (bankDecide b s).pending = s.pending := by
  unfold bankDecide
  (try dsimp only)
  (repeat' split) <;> simp_all

@[simp] theorem indicationChanged_frame (before : RefreshLevel × Bool) (b : BankId) (s : State) :
    (indicationChanged before b s).port = s.port ∧ (indicationChanged before b s).engine = s.engine ∧
      (indicationChanged before b s).channel = s.channel ∧ (indicationChanged before b s).reporting = s.reporting ∧
      (indicationChanged before b s).intake = s.intake ∧ (indicationChanged before b s).pool = s.pool ∧
      (indicationChanged before b s).table = s.table ∧ (indicationChanged before b s).strokes = s.strokes ∧
      (indicationChanged before b s).refresh = s.refresh ∧ (indicationChanged before b s).regions = s.regions ∧
      (indicationChanged before b s).domains = s.domains ∧ (indicationChanged before b s).arrayMode = s.arrayMode ∧
      (indicationChanged before b s).array = s.array ∧ (indicationChanged before b s).pending = s.pending := by
  unfold indicationChanged
  (try dsimp only)
  (repeat' split) <;> simp_all

@[simp] theorem handK_frame (b : BankId) (s : State) :
    (handK b s).port = s.port ∧ (handK b s).engine = s.engine ∧ (handK b s).channel = s.channel ∧ (handK b s).reporting = s.reporting ∧
      (handK b s).intake = s.intake ∧ (handK b s).pool = s.pool ∧ (handK b s).table = s.table ∧ (handK b s).strokes = s.strokes ∧
      (handK b s).regions = s.regions ∧ (handK b s).domains = s.domains ∧ (handK b s).arrayMode = s.arrayMode ∧ (handK b s).array = s.array ∧
      (handK b s).pending = s.pending ∧ (handK b s).refresh.tempClass = s.refresh.tempClass ∧
      (handK b s).refresh.sampleTimer = s.refresh.sampleTimer ∧ (handK b s).refresh.breaches = s.refresh.breaches := by
  unfold handK
  (try dsimp only)
  (repeat' split) <;> simp_all

@[simp] theorem handAllK_frame (s : State) :
    (handAllK s).port = s.port ∧ (handAllK s).engine = s.engine ∧ (handAllK s).channel = s.channel ∧ (handAllK s).reporting = s.reporting ∧
      (handAllK s).intake = s.intake ∧ (handAllK s).pool = s.pool ∧ (handAllK s).table = s.table ∧ (handAllK s).strokes = s.strokes ∧
      (handAllK s).regions = s.regions ∧ (handAllK s).domains = s.domains ∧ (handAllK s).arrayMode = s.arrayMode ∧ (handAllK s).array = s.array ∧
      (handAllK s).pending = s.pending ∧ (handAllK s).refresh.tempClass = s.refresh.tempClass ∧
      (handAllK s).refresh.sampleTimer = s.refresh.sampleTimer ∧ (handAllK s).refresh.breaches = s.refresh.breaches := by
  unfold handAllK
  (try dsimp only)
  (repeat' split) <;> simp_all

@[simp] theorem dropArming_frame (n : OrderName) (s : State) :
    (dropArming n s).port = s.port ∧ (dropArming n s).engine = s.engine ∧ (dropArming n s).channel = s.channel ∧
      (dropArming n s).reporting = s.reporting ∧ (dropArming n s).intake = s.intake ∧ (dropArming n s).pool = s.pool ∧
      (dropArming n s).table = s.table ∧ (dropArming n s).strokes = s.strokes ∧ (dropArming n s).domains = s.domains ∧
      (dropArming n s).arrayMode = s.arrayMode ∧ (dropArming n s).array = s.array ∧ (dropArming n s).pending = s.pending ∧
      (dropArming n s).refresh.tempClass = s.refresh.tempClass ∧ (dropArming n s).refresh.sampleTimer = s.refresh.sampleTimer ∧
      (dropArming n s).refresh.breaches = s.refresh.breaches := by
  unfold dropArming
  (try dsimp only)
  (repeat' split) <;> simp_all

@[simp] theorem lostSetFollow_frame (before : BitVec 64) (s : State) :
    (lostSetFollow before s).port = s.port ∧ (lostSetFollow before s).engine = s.engine ∧ (lostSetFollow before s).intake = s.intake ∧
      (lostSetFollow before s).pool = s.pool ∧ (lostSetFollow before s).table = s.table ∧ (lostSetFollow before s).strokes = s.strokes ∧
      (lostSetFollow before s).banks = s.banks ∧ (lostSetFollow before s).refresh = s.refresh ∧ (lostSetFollow before s).regions = s.regions ∧
      (lostSetFollow before s).domains = s.domains ∧ (lostSetFollow before s).arrayMode = s.arrayMode ∧ (lostSetFollow before s).array = s.array ∧
      (lostSetFollow before s).pending = s.pending ∧ (lostSetFollow before s).channel.outstanding = s.channel.outstanding ∧
      (lostSetFollow before s).channel.nextTag = s.channel.nextTag ∧ (lostSetFollow before s).reporting.released = s.reporting.released := by
  unfold lostSetFollow
  (try dsimp only)
  (repeat' split) <;> simp_all

@[simp] theorem toReporting_frame (l : Lane) (r : OrderResult) (s : State) :
    (toReporting l r s).port = s.port ∧ (toReporting l r s).engine = s.engine ∧ (toReporting l r s).reporting = s.reporting ∧
      (toReporting l r s).intake = s.intake ∧ (toReporting l r s).banks = s.banks ∧ (toReporting l r s).refresh = s.refresh ∧
      (toReporting l r s).regions = s.regions ∧ (toReporting l r s).domains = s.domains ∧ (toReporting l r s).arrayMode = s.arrayMode ∧
      (toReporting l r s).array = s.array ∧ (toReporting l r s).pending = s.pending ∧
      (toReporting l r s).channel.outstanding = s.channel.outstanding ∧ (toReporting l r s).channel.nextTag = s.channel.nextTag ∧
      (toReporting l r s).pool.taken = s.pool.taken ∧ (toReporting l r s).pool.finished = s.pool.finished ∧
      (toReporting l r s).pool.cancelList = s.pool.cancelList ∧ (toReporting l r s).strokes.records = s.strokes.records ∧
      (toReporting l r s).strokes.lastGranted = s.strokes.lastGranted := by
  unfold toReporting
  (try dsimp only)
  (repeat' split) <;> simp_all

@[simp] theorem endTest_frame (l : Lane) (s : State) :
    (endTest l s).port = s.port ∧ (endTest l s).engine = s.engine ∧ (endTest l s).reporting = s.reporting ∧ (endTest l s).intake = s.intake ∧
      (endTest l s).banks = s.banks ∧ (endTest l s).refresh = s.refresh ∧ (endTest l s).regions = s.regions ∧ (endTest l s).domains = s.domains ∧
      (endTest l s).arrayMode = s.arrayMode ∧ (endTest l s).array = s.array ∧ (endTest l s).pending = s.pending ∧
      (endTest l s).channel.outstanding = s.channel.outstanding ∧ (endTest l s).channel.nextTag = s.channel.nextTag ∧
      (endTest l s).pool.taken = s.pool.taken ∧ (endTest l s).pool.finished = s.pool.finished ∧ (endTest l s).pool.cancelList = s.pool.cancelList ∧
      (endTest l s).strokes.records = s.strokes.records ∧ (endTest l s).strokes.lastGranted = s.strokes.lastGranted := by
  unfold endTest
  (try dsimp only)
  (repeat' split) <;> simp_all

@[simp] theorem stopIssuing_frame (l : Lane) (s : State) :
    (stopIssuing l s).port = s.port ∧ (stopIssuing l s).engine = s.engine ∧ (stopIssuing l s).channel = s.channel ∧
      (stopIssuing l s).reporting = s.reporting ∧ (stopIssuing l s).intake = s.intake ∧ (stopIssuing l s).pool = s.pool ∧
      (stopIssuing l s).table = s.table ∧ (stopIssuing l s).banks = s.banks ∧ (stopIssuing l s).refresh = s.refresh ∧
      (stopIssuing l s).regions = s.regions ∧ (stopIssuing l s).domains = s.domains ∧ (stopIssuing l s).arrayMode = s.arrayMode ∧
      (stopIssuing l s).array = s.array ∧ (stopIssuing l s).pending = s.pending ∧ (stopIssuing l s).strokes.records = s.strokes.records ∧
      (stopIssuing l s).strokes.lastGranted = s.strokes.lastGranted := by
  unfold stopIssuing
  (try dsimp only)
  (repeat' split) <;> simp_all

@[simp] theorem stopOrder_frame (l : Lane) (cause : Option StopCause) (s : State) :
    (stopOrder l cause s).port = s.port ∧ (stopOrder l cause s).engine = s.engine ∧ (stopOrder l cause s).reporting = s.reporting ∧
      (stopOrder l cause s).intake = s.intake ∧ (stopOrder l cause s).domains = s.domains ∧ (stopOrder l cause s).arrayMode = s.arrayMode ∧
      (stopOrder l cause s).array = s.array ∧ (stopOrder l cause s).pending = s.pending ∧
      (stopOrder l cause s).channel.outstanding = s.channel.outstanding ∧ (stopOrder l cause s).channel.nextTag = s.channel.nextTag ∧
      (stopOrder l cause s).pool.taken = s.pool.taken ∧ (stopOrder l cause s).pool.finished = s.pool.finished ∧
      (stopOrder l cause s).pool.cancelList = s.pool.cancelList ∧ (stopOrder l cause s).strokes.records = s.strokes.records ∧
      (stopOrder l cause s).strokes.lastGranted = s.strokes.lastGranted ∧ (stopOrder l cause s).refresh.tempClass = s.refresh.tempClass ∧
      (stopOrder l cause s).refresh.sampleTimer = s.refresh.sampleTimer ∧ (stopOrder l cause s).refresh.breaches = s.refresh.breaches := by
  unfold stopOrder
  (try dsimp only)
  (repeat' split) <;> simp_all

@[simp] theorem toStopping_frame (l : Lane) (cause : Option StopCause) (s : State) :
    (toStopping l cause s).port = s.port ∧ (toStopping l cause s).engine = s.engine ∧ (toStopping l cause s).reporting = s.reporting ∧
      (toStopping l cause s).intake = s.intake ∧ (toStopping l cause s).domains = s.domains ∧ (toStopping l cause s).arrayMode = s.arrayMode ∧
      (toStopping l cause s).array = s.array ∧ (toStopping l cause s).pending = s.pending ∧
      (toStopping l cause s).channel.outstanding = s.channel.outstanding ∧ (toStopping l cause s).channel.nextTag = s.channel.nextTag ∧
      (toStopping l cause s).pool.taken = s.pool.taken ∧ (toStopping l cause s).pool.finished = s.pool.finished ∧
      (toStopping l cause s).pool.cancelList = s.pool.cancelList ∧ (toStopping l cause s).strokes.records = s.strokes.records ∧
      (toStopping l cause s).strokes.lastGranted = s.strokes.lastGranted ∧ (toStopping l cause s).refresh.tempClass = s.refresh.tempClass ∧
      (toStopping l cause s).refresh.sampleTimer = s.refresh.sampleTimer ∧ (toStopping l cause s).refresh.breaches = s.refresh.breaches := by
  unfold toStopping
  split
  · simp
  · simp

@[simp] theorem orderComplete_frame (l : Lane) (r : OrderResult) (s : State) :
    (orderComplete l r s).port = s.port ∧ (orderComplete l r s).engine = s.engine ∧ (orderComplete l r s).reporting = s.reporting ∧
      (orderComplete l r s).intake = s.intake ∧ (orderComplete l r s).banks = s.banks ∧ (orderComplete l r s).refresh = s.refresh ∧
      (orderComplete l r s).regions = s.regions ∧ (orderComplete l r s).domains = s.domains ∧ (orderComplete l r s).arrayMode = s.arrayMode ∧
      (orderComplete l r s).array = s.array ∧ (orderComplete l r s).pending = s.pending ∧
      (orderComplete l r s).channel.outstanding = s.channel.outstanding ∧ (orderComplete l r s).channel.nextTag = s.channel.nextTag ∧
      (orderComplete l r s).pool.taken = s.pool.taken ∧ (orderComplete l r s).pool.finished = s.pool.finished ∧
      (orderComplete l r s).pool.cancelList = s.pool.cancelList ∧ (orderComplete l r s).strokes.records = s.strokes.records ∧
      (orderComplete l r s).strokes.lastGranted = s.strokes.lastGranted := by
  unfold orderComplete
  (try dsimp only)
  (repeat' split) <;> simp_all

@[simp] theorem idleFollow_frame (s : State) :
    (idleFollow s).port = s.port ∧ (idleFollow s).engine = s.engine ∧ (idleFollow s).channel = s.channel ∧ (idleFollow s).reporting = s.reporting ∧
      (idleFollow s).intake = s.intake ∧ (idleFollow s).pool = s.pool ∧ (idleFollow s).table = s.table ∧ (idleFollow s).strokes = s.strokes ∧
      (idleFollow s).banks = s.banks ∧ (idleFollow s).refresh = s.refresh ∧ (idleFollow s).regions = s.regions ∧ (idleFollow s).domains = s.domains ∧
      (idleFollow s).array = s.array ∧ (idleFollow s).pending = s.pending ∧ (idleFollow s).arrayMode.mode = s.arrayMode.mode ∧
      (idleFollow s).arrayMode.wakeTimer = s.arrayMode.wakeTimer ∧ (idleFollow s).arrayMode.forcedSleep = s.arrayMode.forcedSleep := by
  unfold idleFollow
  (try dsimp only)
  (repeat' split) <;> simp_all

@[simp] theorem idleRestart_frame (s : State) :
    (idleRestart s).port = s.port ∧ (idleRestart s).engine = s.engine ∧ (idleRestart s).channel = s.channel ∧
      (idleRestart s).reporting = s.reporting ∧ (idleRestart s).intake = s.intake ∧ (idleRestart s).pool = s.pool ∧ (idleRestart s).table = s.table ∧
      (idleRestart s).strokes = s.strokes ∧ (idleRestart s).banks = s.banks ∧ (idleRestart s).refresh = s.refresh ∧
      (idleRestart s).regions = s.regions ∧ (idleRestart s).domains = s.domains ∧ (idleRestart s).array = s.array ∧
      (idleRestart s).pending = s.pending ∧ (idleRestart s).arrayMode.mode = s.arrayMode.mode ∧
      (idleRestart s).arrayMode.wakeTimer = s.arrayMode.wakeTimer ∧ (idleRestart s).arrayMode.forcedSleep = s.arrayMode.forcedSleep := by
  unfold idleRestart
  (try dsimp only)
  (repeat' split) <;> simp_all

@[simp] theorem joinBank_frame (b : BankId) (q : BankRequest) (s : State) :
    (joinBank b q s).port = s.port ∧ (joinBank b q s).engine = s.engine ∧ (joinBank b q s).channel = s.channel ∧
      (joinBank b q s).reporting = s.reporting ∧ (joinBank b q s).intake = s.intake ∧ (joinBank b q s).pool = s.pool ∧
      (joinBank b q s).table = s.table ∧ (joinBank b q s).strokes = s.strokes ∧ (joinBank b q s).refresh = s.refresh ∧
      (joinBank b q s).regions = s.regions ∧ (joinBank b q s).domains = s.domains ∧ (joinBank b q s).arrayMode = s.arrayMode ∧
      (joinBank b q s).array = s.array ∧ (joinBank b q s).pending = s.pending := by
  unfold joinBank
  (try dsimp only)
  (repeat' split) <;> simp_all

@[simp] theorem updateGenerator_frame (l : Lane) (f : Generator → Generator) (s : State) :
    (updateGenerator l f s).port = s.port ∧ (updateGenerator l f s).engine = s.engine ∧ (updateGenerator l f s).channel = s.channel ∧
      (updateGenerator l f s).reporting = s.reporting ∧ (updateGenerator l f s).intake = s.intake ∧ (updateGenerator l f s).pool = s.pool ∧
      (updateGenerator l f s).table = s.table ∧ (updateGenerator l f s).banks = s.banks ∧ (updateGenerator l f s).refresh = s.refresh ∧
      (updateGenerator l f s).regions = s.regions ∧ (updateGenerator l f s).domains = s.domains ∧ (updateGenerator l f s).arrayMode = s.arrayMode ∧
      (updateGenerator l f s).array = s.array ∧ (updateGenerator l f s).pending = s.pending ∧
      (updateGenerator l f s).strokes.records = s.strokes.records ∧ (updateGenerator l f s).strokes.lastGranted = s.strokes.lastGranted := by
  unfold updateGenerator
  (try dsimp only)
  (repeat' split) <;> simp_all

@[simp] theorem armingReport_frame (i : StrokeId) (r : RegionId) (s : State) :
    (armingReport i r s).port = s.port ∧ (armingReport i r s).engine = s.engine ∧ (armingReport i r s).reporting = s.reporting ∧
      (armingReport i r s).intake = s.intake ∧ (armingReport i r s).banks = s.banks ∧ (armingReport i r s).refresh = s.refresh ∧
      (armingReport i r s).domains = s.domains ∧ (armingReport i r s).arrayMode = s.arrayMode ∧ (armingReport i r s).array = s.array ∧
      (armingReport i r s).pending = s.pending ∧ (armingReport i r s).channel.outstanding = s.channel.outstanding ∧
      (armingReport i r s).channel.nextTag = s.channel.nextTag ∧ (armingReport i r s).pool.taken = s.pool.taken ∧
      (armingReport i r s).pool.finished = s.pool.finished ∧ (armingReport i r s).pool.cancelList = s.pool.cancelList ∧
      (armingReport i r s).strokes.records = s.strokes.records ∧ (armingReport i r s).strokes.lastGranted = s.strokes.lastGranted := by
  unfold armingReport
  (try dsimp only)
  (repeat' split) <;> simp_all

@[simp] theorem dataCompleteTest_frame (l : Lane) (s : State) :
    (dataCompleteTest l s).port = s.port ∧ (dataCompleteTest l s).engine = s.engine ∧ (dataCompleteTest l s).reporting = s.reporting ∧
      (dataCompleteTest l s).intake = s.intake ∧ (dataCompleteTest l s).banks = s.banks ∧ (dataCompleteTest l s).refresh = s.refresh ∧
      (dataCompleteTest l s).regions = s.regions ∧ (dataCompleteTest l s).domains = s.domains ∧ (dataCompleteTest l s).arrayMode = s.arrayMode ∧
      (dataCompleteTest l s).array = s.array ∧ (dataCompleteTest l s).pending = s.pending ∧
      (dataCompleteTest l s).channel.outstanding = s.channel.outstanding ∧ (dataCompleteTest l s).channel.nextTag = s.channel.nextTag ∧
      (dataCompleteTest l s).pool.taken = s.pool.taken ∧ (dataCompleteTest l s).pool.finished = s.pool.finished ∧
      (dataCompleteTest l s).pool.cancelList = s.pool.cancelList ∧ (dataCompleteTest l s).strokes.records = s.strokes.records ∧
      (dataCompleteTest l s).strokes.lastGranted = s.strokes.lastGranted := by
  unfold dataCompleteTest
  (try dsimp only)
  (repeat' split) <;> simp_all

@[simp] theorem endTests_frame (l : Lane) (s : State) :
    (endTests l s).port = s.port ∧ (endTests l s).engine = s.engine ∧ (endTests l s).reporting = s.reporting ∧
      (endTests l s).intake = s.intake ∧ (endTests l s).banks = s.banks ∧ (endTests l s).refresh = s.refresh ∧
      (endTests l s).regions = s.regions ∧ (endTests l s).domains = s.domains ∧ (endTests l s).arrayMode = s.arrayMode ∧
      (endTests l s).array = s.array ∧ (endTests l s).pending = s.pending ∧
      (endTests l s).channel.outstanding = s.channel.outstanding ∧ (endTests l s).channel.nextTag = s.channel.nextTag ∧
      (endTests l s).pool.taken = s.pool.taken ∧ (endTests l s).pool.finished = s.pool.finished ∧
      (endTests l s).pool.cancelList = s.pool.cancelList ∧ (endTests l s).strokes.records = s.strokes.records ∧
      (endTests l s).strokes.lastGranted = s.strokes.lastGranted := by
  unfold endTests
  (try dsimp only)
  (repeat' split) <;> simp_all

@[simp] theorem copyDone_frame (l : Lane) (s : State) :
    (copyDone l s).port = s.port ∧ (copyDone l s).engine = s.engine ∧ (copyDone l s).channel = s.channel ∧ (copyDone l s).reporting = s.reporting ∧
      (copyDone l s).intake = s.intake ∧ (copyDone l s).strokes = s.strokes ∧ (copyDone l s).banks = s.banks ∧ (copyDone l s).refresh = s.refresh ∧
      (copyDone l s).regions = s.regions ∧ (copyDone l s).domains = s.domains ∧ (copyDone l s).arrayMode = s.arrayMode ∧
      (copyDone l s).array = s.array ∧ (copyDone l s).pending = s.pending ∧ (copyDone l s).pool.taken = s.pool.taken ∧
      (copyDone l s).pool.finished = s.pool.finished ∧ (copyDone l s).pool.cancelList = s.pool.cancelList := by
  unfold copyDone
  (try dsimp only)
  (repeat' split) <;> simp_all

@[simp] theorem addCorrected_frame (l : Lane) (n : Nat) (s : State) :
    (addCorrected l n s).port = s.port ∧ (addCorrected l n s).engine = s.engine ∧ (addCorrected l n s).channel = s.channel ∧
      (addCorrected l n s).reporting = s.reporting ∧ (addCorrected l n s).intake = s.intake ∧ (addCorrected l n s).strokes = s.strokes ∧
      (addCorrected l n s).banks = s.banks ∧ (addCorrected l n s).refresh = s.refresh ∧ (addCorrected l n s).regions = s.regions ∧
      (addCorrected l n s).domains = s.domains ∧ (addCorrected l n s).arrayMode = s.arrayMode ∧ (addCorrected l n s).array = s.array ∧
      (addCorrected l n s).pending = s.pending ∧ (addCorrected l n s).pool.taken = s.pool.taken ∧
      (addCorrected l n s).pool.finished = s.pool.finished ∧ (addCorrected l n s).pool.cancelList = s.pool.cancelList := by
  unfold addCorrected
  (try dsimp only)
  (repeat' split) <;> simp_all

@[simp] theorem strokeCompletes_frame (r : StrokeRecord) (s : State) :
    (strokeCompletes r s).port = s.port ∧ (strokeCompletes r s).engine = s.engine ∧ (strokeCompletes r s).reporting = s.reporting ∧
      (strokeCompletes r s).intake = s.intake ∧ (strokeCompletes r s).banks = s.banks ∧ (strokeCompletes r s).refresh = s.refresh ∧
      (strokeCompletes r s).domains = s.domains ∧ (strokeCompletes r s).arrayMode = s.arrayMode ∧ (strokeCompletes r s).array = s.array ∧
      (strokeCompletes r s).pending = s.pending ∧ (strokeCompletes r s).channel.outstanding = s.channel.outstanding ∧
      (strokeCompletes r s).channel.nextTag = s.channel.nextTag ∧ (strokeCompletes r s).pool.taken = s.pool.taken ∧
      (strokeCompletes r s).pool.finished = s.pool.finished ∧ (strokeCompletes r s).pool.cancelList = s.pool.cancelList ∧
      (strokeCompletes r s).strokes.lastGranted = s.strokes.lastGranted := by
  unfold strokeCompletes
  (try dsimp only)
  (repeat' split) <;> simp_all

@[simp] theorem strokeFails_frame (r : StrokeRecord) (c : StopCause) (s : State) :
    (strokeFails r c s).port = s.port ∧ (strokeFails r c s).engine = s.engine ∧ (strokeFails r c s).reporting = s.reporting ∧
      (strokeFails r c s).intake = s.intake ∧ (strokeFails r c s).domains = s.domains ∧ (strokeFails r c s).arrayMode = s.arrayMode ∧
      (strokeFails r c s).array = s.array ∧ (strokeFails r c s).pending = s.pending ∧
      (strokeFails r c s).channel.outstanding = s.channel.outstanding ∧ (strokeFails r c s).channel.nextTag = s.channel.nextTag ∧
      (strokeFails r c s).pool.taken = s.pool.taken ∧ (strokeFails r c s).pool.finished = s.pool.finished ∧
      (strokeFails r c s).pool.cancelList = s.pool.cancelList ∧ (strokeFails r c s).strokes.lastGranted = s.strokes.lastGranted ∧
      (strokeFails r c s).refresh.tempClass = s.refresh.tempClass ∧ (strokeFails r c s).refresh.sampleTimer = s.refresh.sampleTimer ∧
      (strokeFails r c s).refresh.breaches = s.refresh.breaches := by
  unfold strokeFails
  (try dsimp only)
  (repeat' split) <;> simp_all

@[simp] theorem placeBankRequest_frame (r : StrokeRecord) (a : Nat) (k : BankRequestKind) (s : State) :
    (placeBankRequest r a k s).port = s.port ∧ (placeBankRequest r a k s).engine = s.engine ∧ (placeBankRequest r a k s).reporting = s.reporting ∧
      (placeBankRequest r a k s).intake = s.intake ∧ (placeBankRequest r a k s).domains = s.domains ∧
      (placeBankRequest r a k s).arrayMode = s.arrayMode ∧ (placeBankRequest r a k s).array = s.array ∧
      (placeBankRequest r a k s).pending = s.pending ∧ (placeBankRequest r a k s).channel.outstanding = s.channel.outstanding ∧
      (placeBankRequest r a k s).channel.nextTag = s.channel.nextTag ∧ (placeBankRequest r a k s).pool.taken = s.pool.taken ∧
      (placeBankRequest r a k s).pool.finished = s.pool.finished ∧ (placeBankRequest r a k s).pool.cancelList = s.pool.cancelList ∧
      (placeBankRequest r a k s).strokes.lastGranted = s.strokes.lastGranted ∧ (placeBankRequest r a k s).refresh.tempClass = s.refresh.tempClass ∧
      (placeBankRequest r a k s).refresh.sampleTimer = s.refresh.sampleTimer ∧ (placeBankRequest r a k s).refresh.breaches = s.refresh.breaches := by
  unfold placeBankRequest
  (try dsimp only)
  (repeat' split) <;> simp_all

@[simp] theorem placeFirstStep_frame (r : StrokeRecord) (aux : Word) (s : State) :
    (placeFirstStep r aux s).port = s.port ∧ (placeFirstStep r aux s).engine = s.engine ∧ (placeFirstStep r aux s).reporting = s.reporting ∧
      (placeFirstStep r aux s).intake = s.intake ∧ (placeFirstStep r aux s).domains = s.domains ∧ (placeFirstStep r aux s).arrayMode = s.arrayMode ∧
      (placeFirstStep r aux s).array = s.array ∧ (placeFirstStep r aux s).pending = s.pending ∧
      (placeFirstStep r aux s).channel.outstanding = s.channel.outstanding ∧ (placeFirstStep r aux s).channel.nextTag = s.channel.nextTag ∧
      (placeFirstStep r aux s).pool.taken = s.pool.taken ∧ (placeFirstStep r aux s).pool.finished = s.pool.finished ∧
      (placeFirstStep r aux s).pool.cancelList = s.pool.cancelList ∧ (placeFirstStep r aux s).strokes.lastGranted = s.strokes.lastGranted ∧
      (placeFirstStep r aux s).refresh.tempClass = s.refresh.tempClass ∧ (placeFirstStep r aux s).refresh.sampleTimer = s.refresh.sampleTimer ∧
      (placeFirstStep r aux s).refresh.breaches = s.refresh.breaches := by
  unfold placeFirstStep
  (try dsimp only)
  (repeat' split) <;> simp_all

@[simp] theorem holdBuffer_frame (b : Option BufferId) (i : StrokeId) (s : State) :
    (holdBuffer b i s).port = s.port ∧ (holdBuffer b i s).engine = s.engine ∧ (holdBuffer b i s).channel = s.channel ∧
      (holdBuffer b i s).reporting = s.reporting ∧ (holdBuffer b i s).intake = s.intake ∧ (holdBuffer b i s).pool = s.pool ∧
      (holdBuffer b i s).table = s.table ∧ (holdBuffer b i s).banks = s.banks ∧ (holdBuffer b i s).refresh = s.refresh ∧
      (holdBuffer b i s).regions = s.regions ∧ (holdBuffer b i s).domains = s.domains ∧ (holdBuffer b i s).arrayMode = s.arrayMode ∧
      (holdBuffer b i s).array = s.array ∧ (holdBuffer b i s).pending = s.pending ∧ (holdBuffer b i s).strokes.records = s.strokes.records ∧
      (holdBuffer b i s).strokes.lastGranted = s.strokes.lastGranted := by
  unfold holdBuffer
  (try dsimp only)
  (repeat' split) <;> simp_all

@[simp] theorem issueStroke_frame (l : Lane) (b : Option BufferId) (s : State) :
    (issueStroke l b s).port = s.port ∧ (issueStroke l b s).engine = s.engine ∧ (issueStroke l b s).reporting = s.reporting ∧
      (issueStroke l b s).intake = s.intake ∧ (issueStroke l b s).domains = s.domains ∧ (issueStroke l b s).arrayMode = s.arrayMode ∧
      (issueStroke l b s).array = s.array ∧ (issueStroke l b s).pending = s.pending ∧
      (issueStroke l b s).channel.outstanding = s.channel.outstanding ∧ (issueStroke l b s).channel.nextTag = s.channel.nextTag ∧
      (issueStroke l b s).pool.taken = s.pool.taken ∧ (issueStroke l b s).pool.finished = s.pool.finished ∧
      (issueStroke l b s).pool.cancelList = s.pool.cancelList ∧ (issueStroke l b s).strokes.lastGranted = s.strokes.lastGranted ∧
      (issueStroke l b s).refresh.tempClass = s.refresh.tempClass ∧ (issueStroke l b s).refresh.sampleTimer = s.refresh.sampleTimer ∧
      (issueStroke l b s).refresh.breaches = s.refresh.breaches := by
  unfold issueStroke
  (try dsimp only)
  (repeat' split) <;> simp_all

@[simp] theorem issueAlone_frame (n : Nat) (l : Lane) (s : State) :
    (issueAlone n l s).port = s.port ∧ (issueAlone n l s).engine = s.engine ∧ (issueAlone n l s).reporting = s.reporting ∧
      (issueAlone n l s).intake = s.intake ∧ (issueAlone n l s).domains = s.domains ∧ (issueAlone n l s).arrayMode = s.arrayMode ∧
      (issueAlone n l s).array = s.array ∧ (issueAlone n l s).pending = s.pending ∧ (issueAlone n l s).channel.outstanding = s.channel.outstanding ∧
      (issueAlone n l s).channel.nextTag = s.channel.nextTag ∧ (issueAlone n l s).pool.taken = s.pool.taken ∧
      (issueAlone n l s).pool.finished = s.pool.finished ∧ (issueAlone n l s).pool.cancelList = s.pool.cancelList ∧
      (issueAlone n l s).strokes.lastGranted = s.strokes.lastGranted ∧ (issueAlone n l s).refresh.tempClass = s.refresh.tempClass ∧
      (issueAlone n l s).refresh.sampleTimer = s.refresh.sampleTimer ∧ (issueAlone n l s).refresh.breaches = s.refresh.breaches := by
  induction n generalizing s with
  | zero => simp [issueAlone]
  | succ n ih =>
    unfold issueAlone
    (repeat' split) <;> simp [ih]

@[simp] theorem grantBuffer_frame (l : Lane) (b : BufferId) (s : State) :
    (grantBuffer l b s).port = s.port ∧ (grantBuffer l b s).engine = s.engine ∧ (grantBuffer l b s).reporting = s.reporting ∧
      (grantBuffer l b s).intake = s.intake ∧ (grantBuffer l b s).domains = s.domains ∧ (grantBuffer l b s).arrayMode = s.arrayMode ∧
      (grantBuffer l b s).array = s.array ∧ (grantBuffer l b s).pending = s.pending ∧
      (grantBuffer l b s).channel.outstanding = s.channel.outstanding ∧ (grantBuffer l b s).channel.nextTag = s.channel.nextTag ∧
      (grantBuffer l b s).pool.taken = s.pool.taken ∧ (grantBuffer l b s).pool.finished = s.pool.finished ∧
      (grantBuffer l b s).pool.cancelList = s.pool.cancelList ∧ (grantBuffer l b s).refresh.tempClass = s.refresh.tempClass ∧
      (grantBuffer l b s).refresh.sampleTimer = s.refresh.sampleTimer ∧ (grantBuffer l b s).refresh.breaches = s.refresh.breaches := by
  unfold grantBuffer
  (try dsimp only)
  (repeat' split) <;> simp_all

@[simp] theorem grantBuffers_frame (n : Nat) (s : State) :
    (grantBuffers n s).port = s.port ∧ (grantBuffers n s).engine = s.engine ∧ (grantBuffers n s).reporting = s.reporting ∧
      (grantBuffers n s).intake = s.intake ∧ (grantBuffers n s).domains = s.domains ∧ (grantBuffers n s).arrayMode = s.arrayMode ∧
      (grantBuffers n s).array = s.array ∧ (grantBuffers n s).pending = s.pending ∧ (grantBuffers n s).channel.outstanding = s.channel.outstanding ∧
      (grantBuffers n s).channel.nextTag = s.channel.nextTag ∧ (grantBuffers n s).pool.taken = s.pool.taken ∧
      (grantBuffers n s).pool.finished = s.pool.finished ∧ (grantBuffers n s).pool.cancelList = s.pool.cancelList ∧
      (grantBuffers n s).refresh.tempClass = s.refresh.tempClass ∧ (grantBuffers n s).refresh.sampleTimer = s.refresh.sampleTimer ∧
      (grantBuffers n s).refresh.breaches = s.refresh.breaches := by
  induction n generalizing s with
  | zero => simp [grantBuffers]
  | succ n ih =>
    unfold grantBuffers
    (repeat' split) <;> simp [ih]

@[simp] theorem grants_frame (s : State) :
    (grants s).port = s.port ∧ (grants s).engine = s.engine ∧ (grants s).reporting = s.reporting ∧ (grants s).intake = s.intake ∧
      (grants s).domains = s.domains ∧ (grants s).arrayMode = s.arrayMode ∧ (grants s).array = s.array ∧ (grants s).pending = s.pending ∧
      (grants s).channel.outstanding = s.channel.outstanding ∧ (grants s).channel.nextTag = s.channel.nextTag ∧
      (grants s).pool.taken = s.pool.taken ∧ (grants s).pool.finished = s.pool.finished ∧ (grants s).pool.cancelList = s.pool.cancelList ∧
      (grants s).refresh.tempClass = s.refresh.tempClass ∧ (grants s).refresh.sampleTimer = s.refresh.sampleTimer ∧
      (grants s).refresh.breaches = s.refresh.breaches := by
  unfold grants
  (try dsimp only)
  (repeat' split) <;> simp_all

@[simp] theorem issueMore_frame (l : Lane) (s : State) :
    (issueMore l s).port = s.port ∧ (issueMore l s).engine = s.engine ∧ (issueMore l s).reporting = s.reporting ∧ (issueMore l s).intake = s.intake ∧
      (issueMore l s).domains = s.domains ∧ (issueMore l s).arrayMode = s.arrayMode ∧ (issueMore l s).array = s.array ∧
      (issueMore l s).pending = s.pending ∧ (issueMore l s).channel.outstanding = s.channel.outstanding ∧
      (issueMore l s).channel.nextTag = s.channel.nextTag ∧ (issueMore l s).pool.taken = s.pool.taken ∧
      (issueMore l s).pool.finished = s.pool.finished ∧ (issueMore l s).pool.cancelList = s.pool.cancelList ∧
      (issueMore l s).refresh.tempClass = s.refresh.tempClass ∧ (issueMore l s).refresh.sampleTimer = s.refresh.sampleTimer ∧
      (issueMore l s).refresh.breaches = s.refresh.breaches := by
  unfold issueMore
  (try dsimp only)
  (repeat' split) <;> simp_all

@[simp] theorem strokeDone_frame (r : StrokeRecord) (s : State) :
    (strokeDone r s).port = s.port ∧ (strokeDone r s).engine = s.engine ∧ (strokeDone r s).reporting = s.reporting ∧
      (strokeDone r s).intake = s.intake ∧ (strokeDone r s).domains = s.domains ∧ (strokeDone r s).arrayMode = s.arrayMode ∧
      (strokeDone r s).array = s.array ∧ (strokeDone r s).pending = s.pending ∧ (strokeDone r s).channel.outstanding = s.channel.outstanding ∧
      (strokeDone r s).channel.nextTag = s.channel.nextTag ∧ (strokeDone r s).pool.taken = s.pool.taken ∧
      (strokeDone r s).pool.finished = s.pool.finished ∧ (strokeDone r s).pool.cancelList = s.pool.cancelList ∧
      (strokeDone r s).refresh.tempClass = s.refresh.tempClass ∧ (strokeDone r s).refresh.sampleTimer = s.refresh.sampleTimer ∧
      (strokeDone r s).refresh.breaches = s.refresh.breaches := by
  unfold strokeDone
  (try dsimp only)
  (repeat' split) <;> simp_all

@[simp] theorem strokeFailed_frame (r : StrokeRecord) (c : StopCause) (s : State) :
    (strokeFailed r c s).port = s.port ∧ (strokeFailed r c s).engine = s.engine ∧ (strokeFailed r c s).reporting = s.reporting ∧
      (strokeFailed r c s).intake = s.intake ∧ (strokeFailed r c s).domains = s.domains ∧ (strokeFailed r c s).arrayMode = s.arrayMode ∧
      (strokeFailed r c s).array = s.array ∧ (strokeFailed r c s).pending = s.pending ∧
      (strokeFailed r c s).channel.outstanding = s.channel.outstanding ∧ (strokeFailed r c s).channel.nextTag = s.channel.nextTag ∧
      (strokeFailed r c s).pool.taken = s.pool.taken ∧ (strokeFailed r c s).pool.finished = s.pool.finished ∧
      (strokeFailed r c s).pool.cancelList = s.pool.cancelList ∧ (strokeFailed r c s).refresh.tempClass = s.refresh.tempClass ∧
      (strokeFailed r c s).refresh.sampleTimer = s.refresh.sampleTimer ∧ (strokeFailed r c s).refresh.breaches = s.refresh.breaches := by
  unfold strokeFailed
  (try dsimp only)
  (repeat' split) <;> simp_all

@[simp] theorem startWake_frame (s : State) :
    (startWake s).port = s.port ∧ (startWake s).engine = s.engine ∧ (startWake s).intake = s.intake ∧ (startWake s).pool = s.pool ∧
      (startWake s).table = s.table ∧ (startWake s).strokes = s.strokes ∧ (startWake s).banks = s.banks ∧ (startWake s).refresh = s.refresh ∧
      (startWake s).regions = s.regions ∧ (startWake s).domains = s.domains ∧ (startWake s).array = s.array ∧ (startWake s).pending = s.pending ∧
      (startWake s).channel.outstanding = s.channel.outstanding ∧ (startWake s).channel.nextTag = s.channel.nextTag ∧
      (startWake s).reporting.released = s.reporting.released ∧ (startWake s).arrayMode.forcedSleep = s.arrayMode.forcedSleep := by
  unfold startWake
  (try dsimp only)
  (repeat' split) <;> simp_all

@[simp] theorem endSleepEntry_frame (s : State) :
    (endSleepEntry s).port = s.port ∧ (endSleepEntry s).engine = s.engine ∧ (endSleepEntry s).intake = s.intake ∧ (endSleepEntry s).pool = s.pool ∧
      (endSleepEntry s).table = s.table ∧ (endSleepEntry s).strokes = s.strokes ∧ (endSleepEntry s).banks = s.banks ∧
      (endSleepEntry s).refresh = s.refresh ∧ (endSleepEntry s).regions = s.regions ∧ (endSleepEntry s).domains = s.domains ∧
      (endSleepEntry s).array = s.array ∧ (endSleepEntry s).pending = s.pending ∧ (endSleepEntry s).channel.outstanding = s.channel.outstanding ∧
      (endSleepEntry s).channel.nextTag = s.channel.nextTag ∧ (endSleepEntry s).reporting.released = s.reporting.released ∧
      (endSleepEntry s).arrayMode.forcedSleep = s.arrayMode.forcedSleep := by
  unfold endSleepEntry
  (try dsimp only)
  (repeat' split) <;> simp_all

@[simp] theorem sleepEntryTest_frame (s : State) :
    (sleepEntryTest s).port = s.port ∧ (sleepEntryTest s).engine = s.engine ∧ (sleepEntryTest s).intake = s.intake ∧
      (sleepEntryTest s).pool = s.pool ∧ (sleepEntryTest s).table = s.table ∧ (sleepEntryTest s).strokes = s.strokes ∧
      (sleepEntryTest s).banks = s.banks ∧ (sleepEntryTest s).refresh = s.refresh ∧ (sleepEntryTest s).regions = s.regions ∧
      (sleepEntryTest s).domains = s.domains ∧ (sleepEntryTest s).array = s.array ∧ (sleepEntryTest s).pending = s.pending ∧
      (sleepEntryTest s).channel.outstanding = s.channel.outstanding ∧ (sleepEntryTest s).channel.nextTag = s.channel.nextTag ∧
      (sleepEntryTest s).reporting.released = s.reporting.released ∧ (sleepEntryTest s).arrayMode.forcedSleep = s.arrayMode.forcedSleep := by
  unfold sleepEntryTest
  (try dsimp only)
  (repeat' split) <;> simp_all

@[simp] theorem wakeFollow_frame (s : State) :
    (wakeFollow s).port = s.port ∧ (wakeFollow s).engine = s.engine ∧ (wakeFollow s).intake = s.intake ∧ (wakeFollow s).pool = s.pool ∧
      (wakeFollow s).table = s.table ∧ (wakeFollow s).strokes = s.strokes ∧ (wakeFollow s).banks = s.banks ∧ (wakeFollow s).refresh = s.refresh ∧
      (wakeFollow s).regions = s.regions ∧ (wakeFollow s).domains = s.domains ∧ (wakeFollow s).array = s.array ∧ (wakeFollow s).pending = s.pending ∧
      (wakeFollow s).channel.outstanding = s.channel.outstanding ∧ (wakeFollow s).channel.nextTag = s.channel.nextTag ∧
      (wakeFollow s).reporting.released = s.reporting.released ∧ (wakeFollow s).arrayMode.forcedSleep = s.arrayMode.forcedSleep := by
  unfold wakeFollow
  (try dsimp only)
  (repeat' split) <;> simp_all

@[simp] theorem setDomain_frame (d : DomainId) (st : DomainState) (s : State) :
    (setDomain d st s).port = s.port ∧ (setDomain d st s).engine = s.engine ∧ (setDomain d st s).intake = s.intake ∧
      (setDomain d st s).pool = s.pool ∧ (setDomain d st s).table = s.table ∧ (setDomain d st s).strokes = s.strokes ∧
      (setDomain d st s).banks = s.banks ∧ (setDomain d st s).refresh = s.refresh ∧ (setDomain d st s).regions = s.regions ∧
      (setDomain d st s).arrayMode = s.arrayMode ∧ (setDomain d st s).array = s.array ∧ (setDomain d st s).pending = s.pending ∧
      (setDomain d st s).channel.outstanding = s.channel.outstanding ∧ (setDomain d st s).channel.nextTag = s.channel.nextTag ∧
      (setDomain d st s).reporting.released = s.reporting.released := by
  unfold setDomain
  (try dsimp only)
  (repeat' split) <;> simp_all

@[simp] theorem domainBecomes_frame (d : DomainId) (st : RegionState) (s : State) :
    (domainBecomes d st s).port = s.port ∧ (domainBecomes d st s).engine = s.engine ∧ (domainBecomes d st s).channel = s.channel ∧
      (domainBecomes d st s).reporting = s.reporting ∧ (domainBecomes d st s).intake = s.intake ∧ (domainBecomes d st s).pool = s.pool ∧
      (domainBecomes d st s).table = s.table ∧ (domainBecomes d st s).strokes = s.strokes ∧ (domainBecomes d st s).banks = s.banks ∧
      (domainBecomes d st s).refresh = s.refresh ∧ (domainBecomes d st s).domains = s.domains ∧ (domainBecomes d st s).arrayMode = s.arrayMode ∧
      (domainBecomes d st s).array = s.array ∧ (domainBecomes d st s).pending = s.pending := by
  unfold domainBecomes
  (try dsimp only)
  (repeat' split) <;> simp_all

@[simp] theorem powerOffBank_frame (b : BankId) (s : State) :
    (powerOffBank b s).port = s.port ∧ (powerOffBank b s).engine = s.engine ∧ (powerOffBank b s).channel = s.channel ∧
      (powerOffBank b s).reporting = s.reporting ∧ (powerOffBank b s).intake = s.intake ∧ (powerOffBank b s).pool = s.pool ∧
      (powerOffBank b s).table = s.table ∧ (powerOffBank b s).strokes = s.strokes ∧ (powerOffBank b s).regions = s.regions ∧
      (powerOffBank b s).domains = s.domains ∧ (powerOffBank b s).arrayMode = s.arrayMode ∧ (powerOffBank b s).array = s.array ∧
      (powerOffBank b s).pending = s.pending ∧ (powerOffBank b s).refresh.tempClass = s.refresh.tempClass ∧
      (powerOffBank b s).refresh.sampleTimer = s.refresh.sampleTimer ∧ (powerOffBank b s).refresh.breaches = s.refresh.breaches := by
  unfold powerOffBank
  (try dsimp only)
  (repeat' split) <;> simp_all

@[simp] theorem discardStroke_frame (s : State) (r : StrokeRecord) :
    (discardStroke s r).port = s.port ∧ (discardStroke s r).engine = s.engine ∧ (discardStroke s r).reporting = s.reporting ∧
      (discardStroke s r).intake = s.intake ∧ (discardStroke s r).domains = s.domains ∧ (discardStroke s r).arrayMode = s.arrayMode ∧
      (discardStroke s r).array = s.array ∧ (discardStroke s r).pending = s.pending ∧
      (discardStroke s r).channel.outstanding = s.channel.outstanding ∧ (discardStroke s r).channel.nextTag = s.channel.nextTag ∧
      (discardStroke s r).pool.taken = s.pool.taken ∧ (discardStroke s r).pool.finished = s.pool.finished ∧
      (discardStroke s r).pool.cancelList = s.pool.cancelList ∧ (discardStroke s r).refresh.tempClass = s.refresh.tempClass ∧
      (discardStroke s r).refresh.sampleTimer = s.refresh.sampleTimer ∧ (discardStroke s r).refresh.breaches = s.refresh.breaches := by
  unfold discardStroke
  (try dsimp only)
  (repeat' split) <;> simp_all

@[simp] theorem dropPower_frame (d : DomainId) (s : State) :
    (dropPower d s).port = s.port ∧ (dropPower d s).engine = s.engine ∧ (dropPower d s).channel = s.channel ∧
      (dropPower d s).reporting = s.reporting ∧ (dropPower d s).intake = s.intake ∧ (dropPower d s).pool = s.pool ∧ (dropPower d s).table = s.table ∧
      (dropPower d s).strokes = s.strokes ∧ (dropPower d s).domains = s.domains ∧ (dropPower d s).arrayMode = s.arrayMode ∧
      (dropPower d s).pending = s.pending ∧ (dropPower d s).refresh.tempClass = s.refresh.tempClass ∧
      (dropPower d s).refresh.sampleTimer = s.refresh.sampleTimer ∧ (dropPower d s).refresh.breaches = s.refresh.breaches := by
  unfold dropPower
  (try dsimp only)
  (repeat' split) <;> simp_all

@[simp] theorem startDrain_frame (v : Served) (s : State) :
    (startDrain v s).port = s.port ∧ (startDrain v s).engine = s.engine ∧ (startDrain v s).intake = s.intake ∧ (startDrain v s).pending = s.pending ∧
      (startDrain v s).channel.outstanding = s.channel.outstanding ∧ (startDrain v s).channel.nextTag = s.channel.nextTag ∧
      (startDrain v s).reporting.released = s.reporting.released ∧ (startDrain v s).pool.taken = s.pool.taken ∧
      (startDrain v s).pool.finished = s.pool.finished ∧ (startDrain v s).pool.cancelList = s.pool.cancelList ∧
      (startDrain v s).refresh.tempClass = s.refresh.tempClass ∧ (startDrain v s).refresh.sampleTimer = s.refresh.sampleTimer ∧
      (startDrain v s).refresh.breaches = s.refresh.breaches ∧ (startDrain v s).arrayMode.forcedSleep = s.arrayMode.forcedSleep := by
  unfold startDrain
  (try dsimp only)
  (repeat' split) <;> simp_all

@[simp] theorem drainTest_frame (s : State) :
    (drainTest s).port = s.port ∧ (drainTest s).engine = s.engine ∧ (drainTest s).intake = s.intake ∧ (drainTest s).pending = s.pending ∧
      (drainTest s).channel.outstanding = s.channel.outstanding ∧ (drainTest s).channel.nextTag = s.channel.nextTag ∧
      (drainTest s).reporting.released = s.reporting.released ∧ (drainTest s).pool.taken = s.pool.taken ∧
      (drainTest s).pool.finished = s.pool.finished ∧ (drainTest s).pool.cancelList = s.pool.cancelList ∧
      (drainTest s).refresh.tempClass = s.refresh.tempClass ∧ (drainTest s).refresh.sampleTimer = s.refresh.sampleTimer ∧
      (drainTest s).refresh.breaches = s.refresh.breaches ∧ (drainTest s).arrayMode.forcedSleep = s.arrayMode.forcedSleep := by
  unfold drainTest
  (try dsimp only)
  (repeat' split) <;> simp_all

@[simp] theorem reportStoodDown_frame (b : BankId) (s : State) :
    (reportStoodDown b s).port = s.port ∧ (reportStoodDown b s).engine = s.engine ∧ (reportStoodDown b s).intake = s.intake ∧
      (reportStoodDown b s).pending = s.pending ∧ (reportStoodDown b s).channel.outstanding = s.channel.outstanding ∧
      (reportStoodDown b s).channel.nextTag = s.channel.nextTag ∧ (reportStoodDown b s).reporting.released = s.reporting.released ∧
      (reportStoodDown b s).pool.taken = s.pool.taken ∧ (reportStoodDown b s).pool.finished = s.pool.finished ∧
      (reportStoodDown b s).pool.cancelList = s.pool.cancelList ∧ (reportStoodDown b s).refresh.tempClass = s.refresh.tempClass ∧
      (reportStoodDown b s).refresh.sampleTimer = s.refresh.sampleTimer ∧ (reportStoodDown b s).refresh.breaches = s.refresh.breaches ∧
      (reportStoodDown b s).arrayMode.forcedSleep = s.arrayMode.forcedSleep := by
  unfold reportStoodDown
  (try dsimp only)
  (repeat' split) <;> simp_all

@[simp] theorem enterAsleep_frame (b : BankId) (s : State) :
    (enterAsleep b s).port = s.port ∧ (enterAsleep b s).engine = s.engine ∧ (enterAsleep b s).intake = s.intake ∧
      (enterAsleep b s).pending = s.pending ∧ (enterAsleep b s).channel.outstanding = s.channel.outstanding ∧
      (enterAsleep b s).channel.nextTag = s.channel.nextTag ∧ (enterAsleep b s).reporting.released = s.reporting.released ∧
      (enterAsleep b s).pool.taken = s.pool.taken ∧ (enterAsleep b s).pool.finished = s.pool.finished ∧
      (enterAsleep b s).pool.cancelList = s.pool.cancelList ∧ (enterAsleep b s).refresh.tempClass = s.refresh.tempClass ∧
      (enterAsleep b s).refresh.sampleTimer = s.refresh.sampleTimer ∧ (enterAsleep b s).refresh.breaches = s.refresh.breaches ∧
      (enterAsleep b s).arrayMode.forcedSleep = s.arrayMode.forcedSleep := by
  unfold enterAsleep
  (try dsimp only)
  (repeat' split) <;> simp_all

@[simp] theorem restOrDecide_frame (b : BankId) (s : State) :
    (restOrDecide b s).port = s.port ∧ (restOrDecide b s).engine = s.engine ∧ (restOrDecide b s).intake = s.intake ∧
      (restOrDecide b s).pending = s.pending ∧ (restOrDecide b s).channel.outstanding = s.channel.outstanding ∧
      (restOrDecide b s).channel.nextTag = s.channel.nextTag ∧ (restOrDecide b s).reporting.released = s.reporting.released ∧
      (restOrDecide b s).pool.taken = s.pool.taken ∧ (restOrDecide b s).pool.finished = s.pool.finished ∧
      (restOrDecide b s).pool.cancelList = s.pool.cancelList ∧ (restOrDecide b s).refresh.tempClass = s.refresh.tempClass ∧
      (restOrDecide b s).refresh.sampleTimer = s.refresh.sampleTimer ∧ (restOrDecide b s).refresh.breaches = s.refresh.breaches ∧
      (restOrDecide b s).arrayMode.forcedSleep = s.arrayMode.forcedSleep := by
  unfold restOrDecide
  (try dsimp only)
  (repeat' split) <;> simp_all

@[simp] theorem closeOrDecide_frame (b : BankId) (s : State) :
    (closeOrDecide b s).port = s.port ∧ (closeOrDecide b s).engine = s.engine ∧ (closeOrDecide b s).channel = s.channel ∧
      (closeOrDecide b s).reporting = s.reporting ∧ (closeOrDecide b s).intake = s.intake ∧ (closeOrDecide b s).pool = s.pool ∧
      (closeOrDecide b s).table = s.table ∧ (closeOrDecide b s).strokes = s.strokes ∧ (closeOrDecide b s).refresh = s.refresh ∧
      (closeOrDecide b s).regions = s.regions ∧ (closeOrDecide b s).domains = s.domains ∧ (closeOrDecide b s).arrayMode = s.arrayMode ∧
      (closeOrDecide b s).array = s.array ∧ (closeOrDecide b s).pending = s.pending := by
  unfold closeOrDecide
  (try dsimp only)
  (repeat' split) <;> simp_all

@[simp] theorem sleepEntryAt_frame (b : BankId) (s : State) :
    (sleepEntryAt b s).port = s.port ∧ (sleepEntryAt b s).engine = s.engine ∧ (sleepEntryAt b s).intake = s.intake ∧
      (sleepEntryAt b s).pending = s.pending ∧ (sleepEntryAt b s).channel.outstanding = s.channel.outstanding ∧
      (sleepEntryAt b s).channel.nextTag = s.channel.nextTag ∧ (sleepEntryAt b s).reporting.released = s.reporting.released ∧
      (sleepEntryAt b s).pool.taken = s.pool.taken ∧ (sleepEntryAt b s).pool.finished = s.pool.finished ∧
      (sleepEntryAt b s).pool.cancelList = s.pool.cancelList ∧ (sleepEntryAt b s).refresh.tempClass = s.refresh.tempClass ∧
      (sleepEntryAt b s).refresh.sampleTimer = s.refresh.sampleTimer ∧ (sleepEntryAt b s).refresh.breaches = s.refresh.breaches ∧
      (sleepEntryAt b s).arrayMode.forcedSleep = s.arrayMode.forcedSleep := by
  unfold sleepEntryAt
  (try dsimp only)
  (repeat' split) <;> simp_all

@[simp] theorem startSleepEntry_frame (s : State) :
    (startSleepEntry s).port = s.port ∧ (startSleepEntry s).engine = s.engine ∧ (startSleepEntry s).intake = s.intake ∧
      (startSleepEntry s).pending = s.pending ∧ (startSleepEntry s).channel.outstanding = s.channel.outstanding ∧
      (startSleepEntry s).channel.nextTag = s.channel.nextTag ∧ (startSleepEntry s).reporting.released = s.reporting.released ∧
      (startSleepEntry s).pool.taken = s.pool.taken ∧ (startSleepEntry s).pool.finished = s.pool.finished ∧
      (startSleepEntry s).pool.cancelList = s.pool.cancelList ∧ (startSleepEntry s).refresh.tempClass = s.refresh.tempClass ∧
      (startSleepEntry s).refresh.sampleTimer = s.refresh.sampleTimer ∧ (startSleepEntry s).refresh.breaches = s.refresh.breaches ∧
      (startSleepEntry s).arrayMode.forcedSleep = s.arrayMode.forcedSleep := by
  unfold startSleepEntry
  (try dsimp only)
  (repeat' split) <;> simp_all

@[simp] theorem standDownAt_frame (b : BankId) (s : State) :
    (standDownAt b s).port = s.port ∧ (standDownAt b s).engine = s.engine ∧ (standDownAt b s).intake = s.intake ∧
      (standDownAt b s).pending = s.pending ∧ (standDownAt b s).channel.outstanding = s.channel.outstanding ∧
      (standDownAt b s).channel.nextTag = s.channel.nextTag ∧ (standDownAt b s).reporting.released = s.reporting.released ∧
      (standDownAt b s).pool.taken = s.pool.taken ∧ (standDownAt b s).pool.finished = s.pool.finished ∧
      (standDownAt b s).pool.cancelList = s.pool.cancelList ∧ (standDownAt b s).refresh.tempClass = s.refresh.tempClass ∧
      (standDownAt b s).refresh.sampleTimer = s.refresh.sampleTimer ∧ (standDownAt b s).refresh.breaches = s.refresh.breaches ∧
      (standDownAt b s).arrayMode.forcedSleep = s.arrayMode.forcedSleep := by
  unfold standDownAt
  (try dsimp only)
  (repeat' split) <;> simp_all

@[simp] theorem powerComplete_frame (owner : Option OrderName) (s : State) :
    (powerComplete owner s).port = s.port ∧ (powerComplete owner s).engine = s.engine ∧ (powerComplete owner s).reporting = s.reporting ∧
      (powerComplete owner s).intake = s.intake ∧ (powerComplete owner s).banks = s.banks ∧ (powerComplete owner s).refresh = s.refresh ∧
      (powerComplete owner s).regions = s.regions ∧ (powerComplete owner s).domains = s.domains ∧ (powerComplete owner s).arrayMode = s.arrayMode ∧
      (powerComplete owner s).array = s.array ∧ (powerComplete owner s).pending = s.pending ∧
      (powerComplete owner s).channel.outstanding = s.channel.outstanding ∧ (powerComplete owner s).channel.nextTag = s.channel.nextTag ∧
      (powerComplete owner s).pool.taken = s.pool.taken ∧ (powerComplete owner s).pool.finished = s.pool.finished ∧
      (powerComplete owner s).pool.cancelList = s.pool.cancelList ∧ (powerComplete owner s).strokes.records = s.strokes.records ∧
      (powerComplete owner s).strokes.lastGranted = s.strokes.lastGranted := by
  unfold powerComplete
  (try dsimp only)
  (repeat' split) <;> simp_all

@[simp] theorem startRampUp_frame (q : DomainRequest) (s : State) :
    (startRampUp q s).port = s.port ∧ (startRampUp q s).engine = s.engine ∧ (startRampUp q s).intake = s.intake ∧ (startRampUp q s).pool = s.pool ∧
      (startRampUp q s).table = s.table ∧ (startRampUp q s).strokes = s.strokes ∧ (startRampUp q s).banks = s.banks ∧
      (startRampUp q s).refresh = s.refresh ∧ (startRampUp q s).regions = s.regions ∧ (startRampUp q s).arrayMode = s.arrayMode ∧
      (startRampUp q s).array = s.array ∧ (startRampUp q s).pending = s.pending ∧ (startRampUp q s).channel.outstanding = s.channel.outstanding ∧
      (startRampUp q s).channel.nextTag = s.channel.nextTag ∧ (startRampUp q s).reporting.released = s.reporting.released := by
  unfold startRampUp
  (try dsimp only)
  (repeat' split) <;> simp_all

@[simp] theorem startStandDown_frame (q : DomainRequest) (s : State) :
    (startStandDown q s).port = s.port ∧ (startStandDown q s).engine = s.engine ∧ (startStandDown q s).intake = s.intake ∧
      (startStandDown q s).pending = s.pending ∧ (startStandDown q s).channel.outstanding = s.channel.outstanding ∧
      (startStandDown q s).channel.nextTag = s.channel.nextTag ∧ (startStandDown q s).reporting.released = s.reporting.released ∧
      (startStandDown q s).pool.taken = s.pool.taken ∧ (startStandDown q s).pool.finished = s.pool.finished ∧
      (startStandDown q s).pool.cancelList = s.pool.cancelList ∧ (startStandDown q s).refresh.tempClass = s.refresh.tempClass ∧
      (startStandDown q s).refresh.sampleTimer = s.refresh.sampleTimer ∧ (startStandDown q s).refresh.breaches = s.refresh.breaches ∧
      (startStandDown q s).arrayMode.forcedSleep = s.arrayMode.forcedSleep := by
  unfold startStandDown
  (try dsimp only)
  (repeat' split) <;> simp_all

@[simp] theorem takeRequests_frame (n : Nat) (s : State) :
    (takeRequests n s).port = s.port ∧ (takeRequests n s).engine = s.engine ∧ (takeRequests n s).intake = s.intake ∧
      (takeRequests n s).pending = s.pending ∧ (takeRequests n s).channel.outstanding = s.channel.outstanding ∧
      (takeRequests n s).channel.nextTag = s.channel.nextTag ∧ (takeRequests n s).reporting.released = s.reporting.released ∧
      (takeRequests n s).pool.taken = s.pool.taken ∧ (takeRequests n s).pool.finished = s.pool.finished ∧
      (takeRequests n s).pool.cancelList = s.pool.cancelList ∧ (takeRequests n s).refresh.tempClass = s.refresh.tempClass ∧
      (takeRequests n s).refresh.sampleTimer = s.refresh.sampleTimer ∧ (takeRequests n s).refresh.breaches = s.refresh.breaches ∧
      (takeRequests n s).arrayMode.forcedSleep = s.arrayMode.forcedSleep := by
  induction n generalizing s with
  | zero => simp [takeRequests]
  | succ n ih =>
    unfold takeRequests
    (repeat' split) <;> simp [ih]

@[simp] theorem switchTakes_frame (s : State) :
    (switchTakes s).port = s.port ∧ (switchTakes s).engine = s.engine ∧ (switchTakes s).intake = s.intake ∧ (switchTakes s).pending = s.pending ∧
      (switchTakes s).channel.outstanding = s.channel.outstanding ∧ (switchTakes s).channel.nextTag = s.channel.nextTag ∧
      (switchTakes s).reporting.released = s.reporting.released ∧ (switchTakes s).pool.taken = s.pool.taken ∧
      (switchTakes s).pool.finished = s.pool.finished ∧ (switchTakes s).pool.cancelList = s.pool.cancelList ∧
      (switchTakes s).refresh.tempClass = s.refresh.tempClass ∧ (switchTakes s).refresh.sampleTimer = s.refresh.sampleTimer ∧
      (switchTakes s).refresh.breaches = s.refresh.breaches ∧ (switchTakes s).arrayMode.forcedSleep = s.arrayMode.forcedSleep := by
  unfold switchTakes
  (try dsimp only)
  (repeat' split) <;> simp_all

@[simp] theorem endRamp_frame (v : Served) (s : State) :
    (endRamp v s).port = s.port ∧ (endRamp v s).engine = s.engine ∧ (endRamp v s).intake = s.intake ∧ (endRamp v s).pending = s.pending ∧
      (endRamp v s).channel.outstanding = s.channel.outstanding ∧ (endRamp v s).channel.nextTag = s.channel.nextTag ∧
      (endRamp v s).reporting.released = s.reporting.released ∧ (endRamp v s).pool.taken = s.pool.taken ∧
      (endRamp v s).pool.finished = s.pool.finished ∧ (endRamp v s).pool.cancelList = s.pool.cancelList ∧
      (endRamp v s).refresh.tempClass = s.refresh.tempClass ∧ (endRamp v s).refresh.sampleTimer = s.refresh.sampleTimer ∧
      (endRamp v s).refresh.breaches = s.refresh.breaches ∧ (endRamp v s).arrayMode.forcedSleep = s.arrayMode.forcedSleep := by
  unfold endRamp
  (try dsimp only)
  (repeat' split) <;> simp_all

@[simp] theorem powerUpBank_frame (b : BankId) (s : State) :
    (powerUpBank b s).port = s.port ∧ (powerUpBank b s).engine = s.engine ∧ (powerUpBank b s).channel = s.channel ∧
      (powerUpBank b s).reporting = s.reporting ∧ (powerUpBank b s).intake = s.intake ∧ (powerUpBank b s).pool = s.pool ∧
      (powerUpBank b s).table = s.table ∧ (powerUpBank b s).strokes = s.strokes ∧ (powerUpBank b s).refresh = s.refresh ∧
      (powerUpBank b s).regions = s.regions ∧ (powerUpBank b s).domains = s.domains ∧ (powerUpBank b s).arrayMode = s.arrayMode ∧
      (powerUpBank b s).array = s.array ∧ (powerUpBank b s).pending = s.pending := by
  unfold powerUpBank
  (try dsimp only)
  (repeat' split) <;> simp_all

@[simp] theorem finishRampUp_frame (v : Served) (s : State) :
    (finishRampUp v s).port = s.port ∧ (finishRampUp v s).engine = s.engine ∧ (finishRampUp v s).intake = s.intake ∧
      (finishRampUp v s).pending = s.pending ∧ (finishRampUp v s).channel.outstanding = s.channel.outstanding ∧
      (finishRampUp v s).channel.nextTag = s.channel.nextTag ∧ (finishRampUp v s).reporting.released = s.reporting.released ∧
      (finishRampUp v s).pool.taken = s.pool.taken ∧ (finishRampUp v s).pool.finished = s.pool.finished ∧
      (finishRampUp v s).pool.cancelList = s.pool.cancelList ∧ (finishRampUp v s).refresh.tempClass = s.refresh.tempClass ∧
      (finishRampUp v s).refresh.sampleTimer = s.refresh.sampleTimer ∧ (finishRampUp v s).refresh.breaches = s.refresh.breaches ∧
      (finishRampUp v s).arrayMode.forcedSleep = s.arrayMode.forcedSleep := by
  unfold finishRampUp
  (try dsimp only)
  (repeat' split) <;> simp_all

@[simp] theorem finishRampDown_frame (v : Served) (s : State) :
    (finishRampDown v s).port = s.port ∧ (finishRampDown v s).engine = s.engine ∧ (finishRampDown v s).intake = s.intake ∧
      (finishRampDown v s).pending = s.pending ∧ (finishRampDown v s).channel.outstanding = s.channel.outstanding ∧
      (finishRampDown v s).channel.nextTag = s.channel.nextTag ∧ (finishRampDown v s).reporting.released = s.reporting.released ∧
      (finishRampDown v s).pool.taken = s.pool.taken ∧ (finishRampDown v s).pool.finished = s.pool.finished ∧
      (finishRampDown v s).pool.cancelList = s.pool.cancelList ∧ (finishRampDown v s).refresh.tempClass = s.refresh.tempClass ∧
      (finishRampDown v s).refresh.sampleTimer = s.refresh.sampleTimer ∧ (finishRampDown v s).refresh.breaches = s.refresh.breaches ∧
      (finishRampDown v s).arrayMode.forcedSleep = s.arrayMode.forcedSleep := by
  unfold finishRampDown
  (try dsimp only)
  (repeat' split) <;> simp_all

@[simp] theorem wakeBank_frame (b : BankId) (s : State) :
    (wakeBank b s).port = s.port ∧ (wakeBank b s).engine = s.engine ∧ (wakeBank b s).channel = s.channel ∧ (wakeBank b s).reporting = s.reporting ∧
      (wakeBank b s).intake = s.intake ∧ (wakeBank b s).pool = s.pool ∧ (wakeBank b s).table = s.table ∧ (wakeBank b s).strokes = s.strokes ∧
      (wakeBank b s).regions = s.regions ∧ (wakeBank b s).domains = s.domains ∧ (wakeBank b s).arrayMode = s.arrayMode ∧
      (wakeBank b s).array = s.array ∧ (wakeBank b s).pending = s.pending ∧ (wakeBank b s).refresh.tempClass = s.refresh.tempClass ∧
      (wakeBank b s).refresh.sampleTimer = s.refresh.sampleTimer ∧ (wakeBank b s).refresh.breaches = s.refresh.breaches := by
  unfold wakeBank
  (try dsimp only)
  (repeat' split) <;> simp_all

@[simp] theorem wakeBanks_frame (s : State) :
    (wakeBanks s).port = s.port ∧ (wakeBanks s).engine = s.engine ∧ (wakeBanks s).intake = s.intake ∧ (wakeBanks s).pool = s.pool ∧
      (wakeBanks s).table = s.table ∧ (wakeBanks s).strokes = s.strokes ∧ (wakeBanks s).regions = s.regions ∧ (wakeBanks s).domains = s.domains ∧
      (wakeBanks s).array = s.array ∧ (wakeBanks s).pending = s.pending ∧ (wakeBanks s).channel.outstanding = s.channel.outstanding ∧
      (wakeBanks s).channel.nextTag = s.channel.nextTag ∧ (wakeBanks s).reporting.released = s.reporting.released ∧
      (wakeBanks s).refresh.tempClass = s.refresh.tempClass ∧ (wakeBanks s).refresh.sampleTimer = s.refresh.sampleTimer ∧
      (wakeBanks s).refresh.breaches = s.refresh.breaches ∧ (wakeBanks s).arrayMode.forcedSleep = s.arrayMode.forcedSleep := by
  unfold wakeBanks
  (try dsimp only)
  (repeat' split) <;> simp_all

@[simp] theorem finishWake_frame (s : State) :
    (finishWake s).port = s.port ∧ (finishWake s).engine = s.engine ∧ (finishWake s).intake = s.intake ∧ (finishWake s).pending = s.pending ∧
      (finishWake s).channel.outstanding = s.channel.outstanding ∧ (finishWake s).channel.nextTag = s.channel.nextTag ∧
      (finishWake s).reporting.released = s.reporting.released ∧ (finishWake s).pool.taken = s.pool.taken ∧
      (finishWake s).pool.finished = s.pool.finished ∧ (finishWake s).pool.cancelList = s.pool.cancelList ∧
      (finishWake s).refresh.tempClass = s.refresh.tempClass ∧ (finishWake s).refresh.sampleTimer = s.refresh.sampleTimer ∧
      (finishWake s).refresh.breaches = s.refresh.breaches := by
  unfold finishWake
  (try dsimp only)
  (repeat' split) <;> simp_all

@[simp] theorem startDrop_frame (l : Lane) (f : Footprint) (s : State) :
    (startDrop l f s).port = s.port ∧ (startDrop l f s).engine = s.engine ∧ (startDrop l f s).intake = s.intake ∧
      (startDrop l f s).domains = s.domains ∧ (startDrop l f s).arrayMode = s.arrayMode ∧ (startDrop l f s).array = s.array ∧
      (startDrop l f s).pending = s.pending ∧ (startDrop l f s).channel.outstanding = s.channel.outstanding ∧
      (startDrop l f s).channel.nextTag = s.channel.nextTag ∧ (startDrop l f s).reporting.released = s.reporting.released ∧
      (startDrop l f s).pool.taken = s.pool.taken ∧ (startDrop l f s).pool.finished = s.pool.finished ∧
      (startDrop l f s).pool.cancelList = s.pool.cancelList ∧ (startDrop l f s).strokes.records = s.strokes.records ∧
      (startDrop l f s).strokes.lastGranted = s.strokes.lastGranted ∧ (startDrop l f s).refresh.tempClass = s.refresh.tempClass ∧
      (startDrop l f s).refresh.sampleTimer = s.refresh.sampleTimer ∧ (startDrop l f s).refresh.breaches = s.refresh.breaches := by
  unfold startDrop
  (try dsimp only)
  (repeat' split) <;> simp_all

@[simp] theorem startKeep_frame (l : Lane) (o : PoolOrder) (f : Footprint) (s : State) :
    (startKeep l o f s).port = s.port ∧ (startKeep l o f s).engine = s.engine ∧ (startKeep l o f s).intake = s.intake ∧
      (startKeep l o f s).domains = s.domains ∧ (startKeep l o f s).arrayMode = s.arrayMode ∧ (startKeep l o f s).array = s.array ∧
      (startKeep l o f s).pending = s.pending ∧ (startKeep l o f s).channel.outstanding = s.channel.outstanding ∧
      (startKeep l o f s).channel.nextTag = s.channel.nextTag ∧ (startKeep l o f s).reporting.released = s.reporting.released ∧
      (startKeep l o f s).pool.taken = s.pool.taken ∧ (startKeep l o f s).pool.finished = s.pool.finished ∧
      (startKeep l o f s).pool.cancelList = s.pool.cancelList ∧ (startKeep l o f s).refresh.tempClass = s.refresh.tempClass ∧
      (startKeep l o f s).refresh.sampleTimer = s.refresh.sampleTimer ∧ (startKeep l o f s).refresh.breaches = s.refresh.breaches := by
  unfold startKeep
  (try dsimp only)
  (repeat' split) <;> simp_all

@[simp] theorem startPower_frame (l : Lane) (o : PoolOrder) (s : State) :
    (startPower l o s).port = s.port ∧ (startPower l o s).engine = s.engine ∧ (startPower l o s).intake = s.intake ∧
      (startPower l o s).pending = s.pending ∧ (startPower l o s).channel.outstanding = s.channel.outstanding ∧
      (startPower l o s).channel.nextTag = s.channel.nextTag ∧ (startPower l o s).reporting.released = s.reporting.released ∧
      (startPower l o s).pool.taken = s.pool.taken ∧ (startPower l o s).pool.finished = s.pool.finished ∧
      (startPower l o s).pool.cancelList = s.pool.cancelList ∧ (startPower l o s).refresh.tempClass = s.refresh.tempClass ∧
      (startPower l o s).refresh.sampleTimer = s.refresh.sampleTimer ∧ (startPower l o s).refresh.breaches = s.refresh.breaches ∧
      (startPower l o s).arrayMode.forcedSleep = s.arrayMode.forcedSleep := by
  unfold startPower
  (try dsimp only)
  (repeat' split) <;> simp_all

@[simp] theorem startOrder_frame (l : Lane) (o : PoolOrder) (k : OrderKind) (f : Footprint) (s : State) :
    (startOrder l o k f s).port = s.port ∧ (startOrder l o k f s).engine = s.engine ∧ (startOrder l o k f s).intake = s.intake ∧
      (startOrder l o k f s).pending = s.pending ∧ (startOrder l o k f s).channel.outstanding = s.channel.outstanding ∧
      (startOrder l o k f s).channel.nextTag = s.channel.nextTag ∧ (startOrder l o k f s).reporting.released = s.reporting.released ∧
      (startOrder l o k f s).pool.taken = s.pool.taken ∧ (startOrder l o k f s).pool.finished = s.pool.finished ∧
      (startOrder l o k f s).pool.cancelList = s.pool.cancelList ∧ (startOrder l o k f s).refresh.tempClass = s.refresh.tempClass ∧
      (startOrder l o k f s).refresh.sampleTimer = s.refresh.sampleTimer ∧ (startOrder l o k f s).refresh.breaches = s.refresh.breaches ∧
      (startOrder l o k f s).arrayMode.forcedSleep = s.arrayMode.forcedSleep := by
  unfold startOrder
  (try dsimp only)
  (repeat' split) <;> simp_all

@[simp] theorem setWait_frame (l : Lane) (w : WaitReason) (s : State) :
    (setWait l w s).port = s.port ∧ (setWait l w s).engine = s.engine ∧ (setWait l w s).channel = s.channel ∧
      (setWait l w s).reporting = s.reporting ∧ (setWait l w s).intake = s.intake ∧ (setWait l w s).strokes = s.strokes ∧
      (setWait l w s).banks = s.banks ∧ (setWait l w s).refresh = s.refresh ∧ (setWait l w s).regions = s.regions ∧
      (setWait l w s).domains = s.domains ∧ (setWait l w s).arrayMode = s.arrayMode ∧ (setWait l w s).array = s.array ∧
      (setWait l w s).pending = s.pending ∧ (setWait l w s).pool.taken = s.pool.taken ∧ (setWait l w s).pool.finished = s.pool.finished ∧
      (setWait l w s).pool.cancelList = s.pool.cancelList := by
  unfold setWait
  (try dsimp only)
  (repeat' split) <;> simp_all

@[simp] theorem testOrder_frame (l : Lane) (o : PoolOrder) (k : OrderKind) (f : Footprint) (s : State) :
    (testOrder l o k f s).port = s.port ∧ (testOrder l o k f s).engine = s.engine ∧ (testOrder l o k f s).intake = s.intake ∧
      (testOrder l o k f s).pending = s.pending ∧ (testOrder l o k f s).channel.outstanding = s.channel.outstanding ∧
      (testOrder l o k f s).channel.nextTag = s.channel.nextTag ∧ (testOrder l o k f s).reporting.released = s.reporting.released ∧
      (testOrder l o k f s).pool.taken = s.pool.taken ∧ (testOrder l o k f s).pool.finished = s.pool.finished ∧
      (testOrder l o k f s).pool.cancelList = s.pool.cancelList ∧ (testOrder l o k f s).refresh.tempClass = s.refresh.tempClass ∧
      (testOrder l o k f s).refresh.sampleTimer = s.refresh.sampleTimer ∧ (testOrder l o k f s).refresh.breaches = s.refresh.breaches ∧
      (testOrder l o k f s).arrayMode.forcedSleep = s.arrayMode.forcedSleep := by
  unfold testOrder
  (try dsimp only)
  (repeat' split) <;> simp_all

@[simp] theorem runStartTest_frame (l : Lane) (s : State) :
    (runStartTest l s).port = s.port ∧ (runStartTest l s).engine = s.engine ∧ (runStartTest l s).intake = s.intake ∧
      (runStartTest l s).pending = s.pending ∧ (runStartTest l s).channel.outstanding = s.channel.outstanding ∧
      (runStartTest l s).channel.nextTag = s.channel.nextTag ∧ (runStartTest l s).reporting.released = s.reporting.released ∧
      (runStartTest l s).pool.taken = s.pool.taken ∧ (runStartTest l s).pool.finished = s.pool.finished ∧
      (runStartTest l s).pool.cancelList = s.pool.cancelList ∧ (runStartTest l s).refresh.tempClass = s.refresh.tempClass ∧
      (runStartTest l s).refresh.sampleTimer = s.refresh.sampleTimer ∧ (runStartTest l s).refresh.breaches = s.refresh.breaches ∧
      (runStartTest l s).arrayMode.forcedSleep = s.arrayMode.forcedSleep := by
  unfold runStartTest
  (try dsimp only)
  (repeat' split) <;> simp_all

@[simp] theorem testLanes_frame (s : State) :
    (testLanes s).port = s.port ∧ (testLanes s).engine = s.engine ∧ (testLanes s).intake = s.intake ∧ (testLanes s).pending = s.pending ∧
      (testLanes s).channel.outstanding = s.channel.outstanding ∧ (testLanes s).channel.nextTag = s.channel.nextTag ∧
      (testLanes s).reporting.released = s.reporting.released ∧ (testLanes s).pool.taken = s.pool.taken ∧
      (testLanes s).pool.finished = s.pool.finished ∧ (testLanes s).pool.cancelList = s.pool.cancelList ∧
      (testLanes s).refresh.tempClass = s.refresh.tempClass ∧ (testLanes s).refresh.sampleTimer = s.refresh.sampleTimer ∧
      (testLanes s).refresh.breaches = s.refresh.breaches ∧ (testLanes s).arrayMode.forcedSleep = s.arrayMode.forcedSleep := by
  unfold testLanes
  (try dsimp only)
  (repeat' split) <;> simp_all

@[simp] theorem startTests_frame (s : State) :
    (startTests s).port = s.port ∧ (startTests s).engine = s.engine ∧ (startTests s).intake = s.intake ∧ (startTests s).pending = s.pending ∧
      (startTests s).channel.outstanding = s.channel.outstanding ∧ (startTests s).channel.nextTag = s.channel.nextTag ∧
      (startTests s).reporting.released = s.reporting.released ∧ (startTests s).pool.taken = s.pool.taken ∧
      (startTests s).pool.finished = s.pool.finished ∧ (startTests s).pool.cancelList = s.pool.cancelList ∧
      (startTests s).refresh.tempClass = s.refresh.tempClass ∧ (startTests s).refresh.sampleTimer = s.refresh.sampleTimer ∧
      (startTests s).refresh.breaches = s.refresh.breaches ∧ (startTests s).arrayMode.forcedSleep = s.arrayMode.forcedSleep := by
  unfold startTests
  (try dsimp only)
  (repeat' split) <;> simp_all

@[simp] theorem retestIfMoved_frame (before s : State) :
    (retestIfMoved before s).port = s.port ∧ (retestIfMoved before s).engine = s.engine ∧ (retestIfMoved before s).intake = s.intake ∧
      (retestIfMoved before s).pending = s.pending ∧ (retestIfMoved before s).channel.outstanding = s.channel.outstanding ∧
      (retestIfMoved before s).channel.nextTag = s.channel.nextTag ∧ (retestIfMoved before s).reporting.released = s.reporting.released ∧
      (retestIfMoved before s).pool.taken = s.pool.taken ∧ (retestIfMoved before s).pool.finished = s.pool.finished ∧
      (retestIfMoved before s).pool.cancelList = s.pool.cancelList ∧ (retestIfMoved before s).refresh.tempClass = s.refresh.tempClass ∧
      (retestIfMoved before s).refresh.sampleTimer = s.refresh.sampleTimer ∧ (retestIfMoved before s).refresh.breaches = s.refresh.breaches ∧
      (retestIfMoved before s).arrayMode.forcedSleep = s.arrayMode.forcedSleep := by
  unfold retestIfMoved
  (try dsimp only)
  (repeat' split) <;> simp_all

@[simp] theorem markTest_frame (l : Lane) (s : State) :
    (markTest l s).port = s.port ∧ (markTest l s).engine = s.engine ∧ (markTest l s).reporting = s.reporting ∧ (markTest l s).intake = s.intake ∧
      (markTest l s).banks = s.banks ∧ (markTest l s).refresh = s.refresh ∧ (markTest l s).regions = s.regions ∧ (markTest l s).domains = s.domains ∧
      (markTest l s).arrayMode = s.arrayMode ∧ (markTest l s).array = s.array ∧ (markTest l s).pending = s.pending ∧
      (markTest l s).channel.outstanding = s.channel.outstanding ∧ (markTest l s).channel.nextTag = s.channel.nextTag ∧
      (markTest l s).pool.taken = s.pool.taken ∧ (markTest l s).pool.finished = s.pool.finished ∧
      (markTest l s).pool.cancelList = s.pool.cancelList ∧ (markTest l s).strokes.records = s.strokes.records ∧
      (markTest l s).strokes.lastGranted = s.strokes.lastGranted := by
  unfold markTest
  (try dsimp only)
  (repeat' split) <;> simp_all

@[simp] theorem markTests_frame (s : State) :
    (markTests s).port = s.port ∧ (markTests s).engine = s.engine ∧ (markTests s).reporting = s.reporting ∧ (markTests s).intake = s.intake ∧
      (markTests s).banks = s.banks ∧ (markTests s).refresh = s.refresh ∧ (markTests s).regions = s.regions ∧ (markTests s).domains = s.domains ∧
      (markTests s).arrayMode = s.arrayMode ∧ (markTests s).array = s.array ∧ (markTests s).pending = s.pending ∧
      (markTests s).channel.outstanding = s.channel.outstanding ∧ (markTests s).channel.nextTag = s.channel.nextTag ∧
      (markTests s).pool.taken = s.pool.taken ∧ (markTests s).pool.finished = s.pool.finished ∧ (markTests s).pool.cancelList = s.pool.cancelList ∧
      (markTests s).strokes.records = s.strokes.records ∧ (markTests s).strokes.lastGranted = s.strokes.lastGranted := by
  unfold markTests
  (try dsimp only)
  (repeat' split) <;> simp_all

@[simp] theorem admit_frame (l : Lane) (i : SlotId) (o : PoolOrder) (s : State) :
    (enterTable l i o s).port = s.port ∧ (enterTable l i o s).engine = s.engine ∧ (enterTable l i o s).intake = s.intake ∧ (enterTable l i o s).pending = s.pending ∧
      (enterTable l i o s).channel.outstanding = s.channel.outstanding ∧ (enterTable l i o s).channel.nextTag = s.channel.nextTag ∧
      (enterTable l i o s).reporting.released = s.reporting.released ∧ (enterTable l i o s).pool.taken = s.pool.taken ∧
      (enterTable l i o s).pool.finished = s.pool.finished ∧ (enterTable l i o s).pool.cancelList = s.pool.cancelList ∧
      (enterTable l i o s).refresh.tempClass = s.refresh.tempClass ∧ (enterTable l i o s).refresh.sampleTimer = s.refresh.sampleTimer ∧
      (enterTable l i o s).refresh.breaches = s.refresh.breaches ∧ (enterTable l i o s).arrayMode.forcedSleep = s.arrayMode.forcedSleep := by
  unfold enterTable
  (try dsimp only)
  (repeat' split) <;> simp_all

@[simp] theorem promote_frame (l : Lane) (s : State) :
    (promote l s).port = s.port ∧ (promote l s).engine = s.engine ∧ (promote l s).intake = s.intake ∧ (promote l s).pending = s.pending ∧
      (promote l s).channel.outstanding = s.channel.outstanding ∧ (promote l s).channel.nextTag = s.channel.nextTag ∧
      (promote l s).reporting.released = s.reporting.released ∧ (promote l s).pool.taken = s.pool.taken ∧
      (promote l s).pool.finished = s.pool.finished ∧ (promote l s).pool.cancelList = s.pool.cancelList ∧
      (promote l s).refresh.tempClass = s.refresh.tempClass ∧ (promote l s).refresh.sampleTimer = s.refresh.sampleTimer ∧
      (promote l s).refresh.breaches = s.refresh.breaches ∧ (promote l s).arrayMode.forcedSleep = s.arrayMode.forcedSleep := by
  unfold promote
  (try dsimp only)
  (repeat' split) <;> simp_all

@[simp] theorem cancelUntaken_frame (q : Word) (s : State) :
    (cancelUntaken q s).engine = s.engine ∧ (cancelUntaken q s).channel = s.channel ∧ (cancelUntaken q s).reporting = s.reporting ∧
      (cancelUntaken q s).intake = s.intake ∧ (cancelUntaken q s).table = s.table ∧ (cancelUntaken q s).strokes = s.strokes ∧
      (cancelUntaken q s).banks = s.banks ∧ (cancelUntaken q s).refresh = s.refresh ∧ (cancelUntaken q s).regions = s.regions ∧
      (cancelUntaken q s).domains = s.domains ∧ (cancelUntaken q s).arrayMode = s.arrayMode ∧ (cancelUntaken q s).array = s.array ∧
      (cancelUntaken q s).pending = s.pending ∧ (cancelUntaken q s).port.enable = s.port.enable ∧ (cancelUntaken q s).port.poll = s.port.poll ∧
      (cancelUntaken q s).port.idleSleep = s.port.idleSleep ∧ (cancelUntaken q s).port.response = s.port.response ∧
      (cancelUntaken q s).port.exbase = s.port.exbase ∧ (cancelUntaken q s).port.resetHeld = s.port.resetHeld ∧
      (cancelUntaken q s).pool.taken = s.pool.taken ∧ (cancelUntaken q s).pool.finished = s.pool.finished := by
  unfold cancelUntaken
  (try dsimp only)
  (repeat' split) <;> simp_all

@[simp] theorem cancelRunning_frame (l : Lane) (o : PoolOrder) (s : State) :
    (cancelRunning l o s).engine = s.engine ∧ (cancelRunning l o s).reporting = s.reporting ∧ (cancelRunning l o s).intake = s.intake ∧
      (cancelRunning l o s).arrayMode = s.arrayMode ∧ (cancelRunning l o s).array = s.array ∧ (cancelRunning l o s).pending = s.pending ∧
      (cancelRunning l o s).port.enable = s.port.enable ∧ (cancelRunning l o s).port.poll = s.port.poll ∧
      (cancelRunning l o s).port.idleSleep = s.port.idleSleep ∧ (cancelRunning l o s).port.response = s.port.response ∧
      (cancelRunning l o s).port.exbase = s.port.exbase ∧ (cancelRunning l o s).port.resetHeld = s.port.resetHeld ∧
      (cancelRunning l o s).channel.outstanding = s.channel.outstanding ∧ (cancelRunning l o s).channel.nextTag = s.channel.nextTag ∧
      (cancelRunning l o s).pool.taken = s.pool.taken ∧ (cancelRunning l o s).pool.finished = s.pool.finished ∧
      (cancelRunning l o s).pool.cancelList = s.pool.cancelList ∧ (cancelRunning l o s).strokes.records = s.strokes.records ∧
      (cancelRunning l o s).strokes.lastGranted = s.strokes.lastGranted ∧ (cancelRunning l o s).refresh.tempClass = s.refresh.tempClass ∧
      (cancelRunning l o s).refresh.sampleTimer = s.refresh.sampleTimer ∧ (cancelRunning l o s).refresh.breaches = s.refresh.breaches ∧
      (cancelRunning l o s).domains.states = s.domains.states := by
  unfold cancelRunning
  (try dsimp only)
  (repeat' split) <;> simp_all

@[simp] theorem cancelTaken_frame (i : SlotId) (o : PoolOrder) (s : State) :
    (cancelTaken i o s).engine = s.engine ∧ (cancelTaken i o s).reporting = s.reporting ∧ (cancelTaken i o s).intake = s.intake ∧
      (cancelTaken i o s).arrayMode = s.arrayMode ∧ (cancelTaken i o s).array = s.array ∧ (cancelTaken i o s).pending = s.pending ∧
      (cancelTaken i o s).port.enable = s.port.enable ∧ (cancelTaken i o s).port.poll = s.port.poll ∧
      (cancelTaken i o s).port.idleSleep = s.port.idleSleep ∧ (cancelTaken i o s).port.response = s.port.response ∧
      (cancelTaken i o s).port.exbase = s.port.exbase ∧ (cancelTaken i o s).port.resetHeld = s.port.resetHeld ∧
      (cancelTaken i o s).channel.outstanding = s.channel.outstanding ∧ (cancelTaken i o s).channel.nextTag = s.channel.nextTag ∧
      (cancelTaken i o s).pool.taken = s.pool.taken ∧ (cancelTaken i o s).pool.finished = s.pool.finished ∧
      (cancelTaken i o s).pool.cancelList = s.pool.cancelList ∧ (cancelTaken i o s).strokes.records = s.strokes.records ∧
      (cancelTaken i o s).strokes.lastGranted = s.strokes.lastGranted ∧ (cancelTaken i o s).refresh.tempClass = s.refresh.tempClass ∧
      (cancelTaken i o s).refresh.sampleTimer = s.refresh.sampleTimer ∧ (cancelTaken i o s).refresh.breaches = s.refresh.breaches ∧
      (cancelTaken i o s).domains.states = s.domains.states := by
  unfold cancelTaken
  (try dsimp only)
  (repeat' split) <;> simp_all

@[simp] theorem cancelOrder_frame (q : Word) (s : State) :
    (cancelOrder q s).engine = s.engine ∧ (cancelOrder q s).reporting = s.reporting ∧ (cancelOrder q s).intake = s.intake ∧
      (cancelOrder q s).arrayMode = s.arrayMode ∧ (cancelOrder q s).array = s.array ∧ (cancelOrder q s).pending = s.pending ∧
      (cancelOrder q s).port.enable = s.port.enable ∧ (cancelOrder q s).port.poll = s.port.poll ∧
      (cancelOrder q s).port.idleSleep = s.port.idleSleep ∧ (cancelOrder q s).port.response = s.port.response ∧
      (cancelOrder q s).port.exbase = s.port.exbase ∧ (cancelOrder q s).port.resetHeld = s.port.resetHeld ∧
      (cancelOrder q s).channel.outstanding = s.channel.outstanding ∧ (cancelOrder q s).channel.nextTag = s.channel.nextTag ∧
      (cancelOrder q s).pool.taken = s.pool.taken ∧ (cancelOrder q s).pool.finished = s.pool.finished ∧
      (cancelOrder q s).strokes.records = s.strokes.records ∧ (cancelOrder q s).strokes.lastGranted = s.strokes.lastGranted ∧
      (cancelOrder q s).refresh.tempClass = s.refresh.tempClass ∧ (cancelOrder q s).refresh.sampleTimer = s.refresh.sampleTimer ∧
      (cancelOrder q s).refresh.breaches = s.refresh.breaches ∧ (cancelOrder q s).domains.states = s.domains.states := by
  unfold cancelOrder
  (try dsimp only)
  (repeat' split) <;> simp_all

@[simp] theorem haltLane_frame (l : Lane) (s : State) :
    (haltLane l s).port = s.port ∧ (haltLane l s).engine = s.engine ∧ (haltLane l s).reporting = s.reporting ∧ (haltLane l s).intake = s.intake ∧
      (haltLane l s).arrayMode = s.arrayMode ∧ (haltLane l s).array = s.array ∧ (haltLane l s).pending = s.pending ∧
      (haltLane l s).channel.outstanding = s.channel.outstanding ∧ (haltLane l s).channel.nextTag = s.channel.nextTag ∧
      (haltLane l s).pool.taken = s.pool.taken ∧ (haltLane l s).pool.finished = s.pool.finished ∧
      (haltLane l s).pool.cancelList = s.pool.cancelList ∧ (haltLane l s).strokes.records = s.strokes.records ∧
      (haltLane l s).strokes.lastGranted = s.strokes.lastGranted ∧ (haltLane l s).refresh.tempClass = s.refresh.tempClass ∧
      (haltLane l s).refresh.sampleTimer = s.refresh.sampleTimer ∧ (haltLane l s).refresh.breaches = s.refresh.breaches ∧
      (haltLane l s).domains.states = s.domains.states := by
  unfold haltLane
  (try dsimp only)
  (repeat' split) <;> simp_all

@[simp] theorem queueRead_frame (step : ReadStep) (s : State) :
    (queueRead step s).port = s.port ∧ (queueRead step s).engine = s.engine ∧ (queueRead step s).reporting = s.reporting ∧
      (queueRead step s).pool = s.pool ∧ (queueRead step s).table = s.table ∧ (queueRead step s).strokes = s.strokes ∧
      (queueRead step s).banks = s.banks ∧ (queueRead step s).refresh = s.refresh ∧ (queueRead step s).regions = s.regions ∧
      (queueRead step s).domains = s.domains ∧ (queueRead step s).arrayMode = s.arrayMode ∧ (queueRead step s).array = s.array ∧
      (queueRead step s).pending = s.pending ∧ (queueRead step s).channel.outstanding = s.channel.outstanding ∧
      (queueRead step s).channel.nextTag = s.channel.nextTag ∧ (queueRead step s).intake.expected = s.intake.expected ∧
      (queueRead step s).intake.records = s.intake.records := by
  unfold queueRead
  (try dsimp only)
  (repeat' split) <;> simp_all

/-- The poll timer's expiry does nothing, or queues the tally read, which is issued at once unless a NUDGE falls together with it. -/
theorem pollExpires_cases (s : State) :
    pollExpires s = s ∨ (pollExpires s = queueRead .tally s ∧ nudgeFollows s = true)
      ∨ (pollExpires s = issueAccess (queueRead .tally s) ∧ nudgeFollows s = false) := by
  unfold pollExpires
  cases nudgeFollows s <;> split <;> simp

@[simp] theorem enterWatch_frame (s : State) :
    (enterWatch s).port = s.port ∧ (enterWatch s).engine = s.engine ∧ (enterWatch s).pool = s.pool ∧ (enterWatch s).table = s.table ∧
      (enterWatch s).strokes = s.strokes ∧ (enterWatch s).banks = s.banks ∧ (enterWatch s).refresh = s.refresh ∧ (enterWatch s).regions = s.regions ∧
      (enterWatch s).domains = s.domains ∧ (enterWatch s).arrayMode = s.arrayMode ∧ (enterWatch s).array = s.array ∧
      (enterWatch s).pending = s.pending ∧ (enterWatch s).channel.outstanding = s.channel.outstanding ∧
      (enterWatch s).channel.nextTag = s.channel.nextTag ∧ (enterWatch s).reporting.released = s.reporting.released ∧
      (enterWatch s).intake.expected = s.intake.expected ∧ (enterWatch s).intake.records = s.intake.records := by
  unfold enterWatch
  (try dsimp only)
  (repeat' split) <;> simp_all

@[simp] theorem enterStall_frame (st : IntakeState) (s : State) :
    (enterStall st s).port = s.port ∧ (enterStall st s).engine = s.engine ∧ (enterStall st s).pool = s.pool ∧ (enterStall st s).table = s.table ∧
      (enterStall st s).strokes = s.strokes ∧ (enterStall st s).banks = s.banks ∧ (enterStall st s).refresh = s.refresh ∧
      (enterStall st s).regions = s.regions ∧ (enterStall st s).domains = s.domains ∧ (enterStall st s).arrayMode = s.arrayMode ∧
      (enterStall st s).array = s.array ∧ (enterStall st s).pending = s.pending ∧ (enterStall st s).channel.outstanding = s.channel.outstanding ∧
      (enterStall st s).channel.nextTag = s.channel.nextTag ∧ (enterStall st s).reporting.released = s.reporting.released ∧
      (enterStall st s).intake.expected = s.intake.expected ∧ (enterStall st s).intake.records = s.intake.records := by
  unfold enterStall
  (try dsimp only)
  (repeat' split) <;> simp_all

@[simp] theorem breakIntake_frame (reason : IntakeFault) (step : ReadStep) (s : State) :
    (breakIntake reason step s).engine = s.engine ∧ (breakIntake reason step s).pool = s.pool ∧ (breakIntake reason step s).table = s.table ∧
      (breakIntake reason step s).strokes = s.strokes ∧ (breakIntake reason step s).banks = s.banks ∧
      (breakIntake reason step s).refresh = s.refresh ∧ (breakIntake reason step s).regions = s.regions ∧
      (breakIntake reason step s).domains = s.domains ∧ (breakIntake reason step s).arrayMode = s.arrayMode ∧
      (breakIntake reason step s).array = s.array ∧ (breakIntake reason step s).pending = s.pending ∧
      (breakIntake reason step s).port.enable = s.port.enable ∧ (breakIntake reason step s).port.poll = s.port.poll ∧
      (breakIntake reason step s).port.idleSleep = s.port.idleSleep ∧ (breakIntake reason step s).port.response = s.port.response ∧
      (breakIntake reason step s).port.exbase = s.port.exbase ∧ (breakIntake reason step s).port.resetHeld = s.port.resetHeld ∧
      (breakIntake reason step s).port.cancelStatus = s.port.cancelStatus ∧ (breakIntake reason step s).channel.outstanding = s.channel.outstanding ∧
      (breakIntake reason step s).channel.nextTag = s.channel.nextTag ∧ (breakIntake reason step s).reporting.released = s.reporting.released ∧
      (breakIntake reason step s).intake.expected = s.intake.expected ∧ (breakIntake reason step s).intake.records = s.intake.records := by
  unfold breakIntake
  (try dsimp only)
  (repeat' split) <;> simp_all

@[simp] theorem goToPage_frame (s : State) :
    (goToPage s).port = s.port ∧ (goToPage s).engine = s.engine ∧ (goToPage s).reporting = s.reporting ∧ (goToPage s).pool = s.pool ∧
      (goToPage s).table = s.table ∧ (goToPage s).strokes = s.strokes ∧ (goToPage s).banks = s.banks ∧ (goToPage s).refresh = s.refresh ∧
      (goToPage s).regions = s.regions ∧ (goToPage s).domains = s.domains ∧ (goToPage s).arrayMode = s.arrayMode ∧ (goToPage s).array = s.array ∧
      (goToPage s).pending = s.pending ∧ (goToPage s).channel.outstanding = s.channel.outstanding ∧
      (goToPage s).channel.nextTag = s.channel.nextTag ∧ (goToPage s).intake.expected = s.intake.expected ∧
      (goToPage s).intake.records = s.intake.records := by
  unfold goToPage
  (try dsimp only)
  (repeat' split) <;> simp_all

@[simp] theorem poolCheck_frame (s : State) :
    (poolCheck s).port = s.port ∧ (poolCheck s).engine = s.engine ∧ (poolCheck s).pool = s.pool ∧ (poolCheck s).table = s.table ∧
      (poolCheck s).strokes = s.strokes ∧ (poolCheck s).banks = s.banks ∧ (poolCheck s).refresh = s.refresh ∧ (poolCheck s).regions = s.regions ∧
      (poolCheck s).domains = s.domains ∧ (poolCheck s).arrayMode = s.arrayMode ∧ (poolCheck s).array = s.array ∧ (poolCheck s).pending = s.pending ∧
      (poolCheck s).channel.outstanding = s.channel.outstanding ∧ (poolCheck s).channel.nextTag = s.channel.nextTag ∧
      (poolCheck s).reporting.released = s.reporting.released ∧ (poolCheck s).intake.expected = s.intake.expected ∧
      (poolCheck s).intake.records = s.intake.records := by
  unfold poolCheck
  (try dsimp only)
  (repeat' split) <;> simp_all

@[simp] theorem newPageStep_frame (s : State) :
    (newPageStep s).port = s.port ∧ (newPageStep s).engine = s.engine ∧ (newPageStep s).pool = s.pool ∧ (newPageStep s).table = s.table ∧
      (newPageStep s).strokes = s.strokes ∧ (newPageStep s).banks = s.banks ∧ (newPageStep s).refresh = s.refresh ∧
      (newPageStep s).regions = s.regions ∧ (newPageStep s).domains = s.domains ∧ (newPageStep s).arrayMode = s.arrayMode ∧
      (newPageStep s).array = s.array ∧ (newPageStep s).pending = s.pending ∧ (newPageStep s).channel.outstanding = s.channel.outstanding ∧
      (newPageStep s).channel.nextTag = s.channel.nextTag ∧ (newPageStep s).reporting.released = s.reporting.released ∧
      (newPageStep s).intake.expected = s.intake.expected ∧ (newPageStep s).intake.records = s.intake.records := by
  unfold newPageStep
  (try dsimp only)
  (repeat' split) <;> simp_all

@[simp] theorem beginTake_frame (s : State) :
    (beginTake s).port = s.port ∧ (beginTake s).engine = s.engine ∧ (beginTake s).pool = s.pool ∧ (beginTake s).table = s.table ∧
      (beginTake s).strokes = s.strokes ∧ (beginTake s).banks = s.banks ∧ (beginTake s).refresh = s.refresh ∧ (beginTake s).regions = s.regions ∧
      (beginTake s).domains = s.domains ∧ (beginTake s).arrayMode = s.arrayMode ∧ (beginTake s).array = s.array ∧ (beginTake s).pending = s.pending ∧
      (beginTake s).channel.outstanding = s.channel.outstanding ∧ (beginTake s).channel.nextTag = s.channel.nextTag ∧
      (beginTake s).reporting.released = s.reporting.released ∧ (beginTake s).intake.expected = s.intake.expected ∧
      (beginTake s).intake.records = s.intake.records := by
  unfold beginTake
  (try dsimp only)
  (repeat' split) <;> simp_all

@[simp] theorem afterTake_frame (s : State) :
    (afterTake s).port = s.port ∧ (afterTake s).engine = s.engine ∧ (afterTake s).pool = s.pool ∧ (afterTake s).table = s.table ∧
      (afterTake s).strokes = s.strokes ∧ (afterTake s).banks = s.banks ∧ (afterTake s).refresh = s.refresh ∧ (afterTake s).regions = s.regions ∧
      (afterTake s).domains = s.domains ∧ (afterTake s).arrayMode = s.arrayMode ∧ (afterTake s).array = s.array ∧ (afterTake s).pending = s.pending ∧
      (afterTake s).channel.outstanding = s.channel.outstanding ∧ (afterTake s).channel.nextTag = s.channel.nextTag ∧
      (afterTake s).reporting.released = s.reporting.released ∧ (afterTake s).intake.expected = s.intake.expected ∧
      (afterTake s).intake.records = s.intake.records := by
  unfold afterTake
  (try dsimp only)
  (repeat' split) <;> simp_all

@[simp] theorem stopIntake_frame (s : State) :
    (stopIntake s).port = s.port ∧ (stopIntake s).engine = s.engine ∧ (stopIntake s).reporting = s.reporting ∧ (stopIntake s).pool = s.pool ∧
      (stopIntake s).table = s.table ∧ (stopIntake s).strokes = s.strokes ∧ (stopIntake s).banks = s.banks ∧ (stopIntake s).refresh = s.refresh ∧
      (stopIntake s).regions = s.regions ∧ (stopIntake s).domains = s.domains ∧ (stopIntake s).arrayMode = s.arrayMode ∧
      (stopIntake s).array = s.array ∧ (stopIntake s).pending = s.pending ∧ (stopIntake s).channel.outstanding = s.channel.outstanding ∧
      (stopIntake s).channel.nextTag = s.channel.nextTag ∧ (stopIntake s).intake.expected = s.intake.expected ∧
      (stopIntake s).intake.records = s.intake.records := by
  unfold stopIntake
  (try dsimp only)
  (repeat' split) <;> simp_all

@[simp] theorem endAbandonedRead_frame (s : State) :
    (endAbandonedRead s).port = s.port ∧ (endAbandonedRead s).engine = s.engine ∧ (endAbandonedRead s).pool = s.pool ∧
      (endAbandonedRead s).table = s.table ∧ (endAbandonedRead s).strokes = s.strokes ∧ (endAbandonedRead s).banks = s.banks ∧
      (endAbandonedRead s).refresh = s.refresh ∧ (endAbandonedRead s).regions = s.regions ∧ (endAbandonedRead s).domains = s.domains ∧
      (endAbandonedRead s).arrayMode = s.arrayMode ∧ (endAbandonedRead s).array = s.array ∧ (endAbandonedRead s).pending = s.pending ∧
      (endAbandonedRead s).channel.outstanding = s.channel.outstanding ∧ (endAbandonedRead s).channel.nextTag = s.channel.nextTag ∧
      (endAbandonedRead s).reporting.released = s.reporting.released ∧ (endAbandonedRead s).intake.expected = s.intake.expected ∧
      (endAbandonedRead s).intake.records = s.intake.records := by
  unfold endAbandonedRead
  (try dsimp only)
  (repeat' split) <;> simp_all

@[simp] theorem drainedTest_frame (s : State) :
    (drainedTest s).channel = s.channel ∧ (drainedTest s).reporting = s.reporting ∧ (drainedTest s).table = s.table ∧
      (drainedTest s).strokes = s.strokes ∧ (drainedTest s).banks = s.banks ∧ (drainedTest s).refresh = s.refresh ∧
      (drainedTest s).regions = s.regions ∧ (drainedTest s).domains = s.domains ∧ (drainedTest s).arrayMode = s.arrayMode ∧
      (drainedTest s).array = s.array ∧ (drainedTest s).pending = s.pending ∧ (drainedTest s).port.enable = s.port.enable ∧
      (drainedTest s).port.poll = s.port.poll ∧ (drainedTest s).port.idleSleep = s.port.idleSleep ∧ (drainedTest s).port.response = s.port.response ∧
      (drainedTest s).port.exbase = s.port.exbase ∧ (drainedTest s).port.resetHeld = s.port.resetHeld ∧
      (drainedTest s).port.cancelStatus = s.port.cancelStatus ∧ (drainedTest s).engine.haltReason = s.engine.haltReason ∧
      (drainedTest s).intake.expected = s.intake.expected ∧ (drainedTest s).pool.taken = s.pool.taken ∧
      (drainedTest s).pool.finished = s.pool.finished := by
  unfold drainedTest
  (try dsimp only)
  (repeat' split) <;> simp_all

@[simp] theorem haltOnReport_frame (s : State) :
    (haltOnReport s).reporting = s.reporting ∧ (haltOnReport s).arrayMode = s.arrayMode ∧ (haltOnReport s).array = s.array ∧
      (haltOnReport s).pending = s.pending ∧ (haltOnReport s).port.enable = s.port.enable ∧ (haltOnReport s).port.poll = s.port.poll ∧
      (haltOnReport s).port.idleSleep = s.port.idleSleep ∧ (haltOnReport s).port.response = s.port.response ∧
      (haltOnReport s).port.exbase = s.port.exbase ∧ (haltOnReport s).port.resetHeld = s.port.resetHeld ∧
      (haltOnReport s).port.cancelStatus = s.port.cancelStatus ∧ (haltOnReport s).channel.outstanding = s.channel.outstanding ∧
      (haltOnReport s).channel.nextTag = s.channel.nextTag ∧ (haltOnReport s).intake.expected = s.intake.expected ∧
      (haltOnReport s).intake.records = s.intake.records ∧ (haltOnReport s).pool.taken = s.pool.taken ∧
      (haltOnReport s).pool.finished = s.pool.finished ∧ (haltOnReport s).pool.cancelList = s.pool.cancelList ∧
      (haltOnReport s).strokes.records = s.strokes.records ∧ (haltOnReport s).strokes.lastGranted = s.strokes.lastGranted ∧
      (haltOnReport s).refresh.tempClass = s.refresh.tempClass ∧ (haltOnReport s).refresh.sampleTimer = s.refresh.sampleTimer ∧
      (haltOnReport s).refresh.breaches = s.refresh.breaches ∧ (haltOnReport s).domains.states = s.domains.states := by
  unfold haltOnReport
  (try dsimp only)
  (repeat' split) <;> simp_all

@[simp] theorem releaseTest_frame (s : State) :
    (releaseTest s).port = s.port ∧ (releaseTest s).engine = s.engine ∧ (releaseTest s).intake = s.intake ∧ (releaseTest s).pool = s.pool ∧
      (releaseTest s).table = s.table ∧ (releaseTest s).strokes = s.strokes ∧ (releaseTest s).banks = s.banks ∧ (releaseTest s).refresh = s.refresh ∧
      (releaseTest s).regions = s.regions ∧ (releaseTest s).domains = s.domains ∧ (releaseTest s).arrayMode = s.arrayMode ∧
      (releaseTest s).array = s.array ∧ (releaseTest s).pending = s.pending ∧ (releaseTest s).channel.outstanding = s.channel.outstanding ∧
      (releaseTest s).channel.nextTag = s.channel.nextTag ∧ (releaseTest s).reporting.released = s.reporting.released := by
  unfold releaseTest
  (try dsimp only)
  (repeat' split) <;> simp_all

@[simp] theorem disableEngine_frame (s : State) :
    (disableEngine s).reporting = s.reporting ∧ (disableEngine s).table = s.table ∧ (disableEngine s).strokes = s.strokes ∧
      (disableEngine s).banks = s.banks ∧ (disableEngine s).refresh = s.refresh ∧ (disableEngine s).regions = s.regions ∧
      (disableEngine s).domains = s.domains ∧ (disableEngine s).arrayMode = s.arrayMode ∧ (disableEngine s).array = s.array ∧
      (disableEngine s).pending = s.pending ∧ (disableEngine s).port.enable = s.port.enable ∧ (disableEngine s).port.poll = s.port.poll ∧
      (disableEngine s).port.idleSleep = s.port.idleSleep ∧ (disableEngine s).port.response = s.port.response ∧
      (disableEngine s).port.exbase = s.port.exbase ∧ (disableEngine s).port.resetHeld = s.port.resetHeld ∧
      (disableEngine s).port.cancelStatus = s.port.cancelStatus ∧ (disableEngine s).engine.haltReason = s.engine.haltReason ∧
      (disableEngine s).channel.outstanding = s.channel.outstanding ∧ (disableEngine s).channel.nextTag = s.channel.nextTag ∧
      (disableEngine s).intake.expected = s.intake.expected ∧ (disableEngine s).pool.taken = s.pool.taken ∧
      (disableEngine s).pool.finished = s.pool.finished := by
  unfold disableEngine
  (try dsimp only)
  (repeat' split) <;> simp_all

@[simp] theorem resumeEngine_frame (s : State) :
    (resumeEngine s).port = s.port ∧ (resumeEngine s).pool = s.pool ∧ (resumeEngine s).table = s.table ∧ (resumeEngine s).strokes = s.strokes ∧
      (resumeEngine s).banks = s.banks ∧ (resumeEngine s).refresh = s.refresh ∧ (resumeEngine s).regions = s.regions ∧
      (resumeEngine s).domains = s.domains ∧ (resumeEngine s).arrayMode = s.arrayMode ∧ (resumeEngine s).array = s.array ∧
      (resumeEngine s).pending = s.pending ∧ (resumeEngine s).engine.haltReason = s.engine.haltReason ∧
      (resumeEngine s).channel.outstanding = s.channel.outstanding ∧ (resumeEngine s).channel.nextTag = s.channel.nextTag ∧
      (resumeEngine s).reporting.released = s.reporting.released ∧ (resumeEngine s).intake.expected = s.intake.expected ∧
      (resumeEngine s).intake.records = s.intake.records := by
  unfold resumeEngine
  (try dsimp only)
  (repeat' split) <;> simp_all

@[simp] theorem startEngine_frame (s : State) :
    (startEngine s).port = s.port ∧ (startEngine s).reporting = s.reporting ∧ (startEngine s).intake = s.intake ∧ (startEngine s).pool = s.pool ∧
      (startEngine s).table = s.table ∧ (startEngine s).strokes = s.strokes ∧ (startEngine s).banks = s.banks ∧ (startEngine s).refresh = s.refresh ∧
      (startEngine s).regions = s.regions ∧ (startEngine s).domains = s.domains ∧ (startEngine s).arrayMode = s.arrayMode ∧
      (startEngine s).array = s.array ∧ (startEngine s).pending = s.pending ∧ (startEngine s).channel.outstanding = s.channel.outstanding ∧
      (startEngine s).channel.nextTag = s.channel.nextTag := by
  unfold startEngine
  (try dsimp only)
  (repeat' split) <;> simp_all

@[simp] theorem enableChanged_frame (on : Bool) (s : State) :
    (enableChanged on s).table = s.table ∧ (enableChanged on s).strokes = s.strokes ∧ (enableChanged on s).banks = s.banks ∧
      (enableChanged on s).refresh = s.refresh ∧ (enableChanged on s).regions = s.regions ∧ (enableChanged on s).domains = s.domains ∧
      (enableChanged on s).arrayMode = s.arrayMode ∧ (enableChanged on s).array = s.array ∧ (enableChanged on s).pending = s.pending ∧
      (enableChanged on s).port.enable = s.port.enable ∧ (enableChanged on s).port.poll = s.port.poll ∧
      (enableChanged on s).port.idleSleep = s.port.idleSleep ∧ (enableChanged on s).port.response = s.port.response ∧
      (enableChanged on s).port.exbase = s.port.exbase ∧ (enableChanged on s).port.resetHeld = s.port.resetHeld ∧
      (enableChanged on s).port.cancelStatus = s.port.cancelStatus ∧ (enableChanged on s).channel.outstanding = s.channel.outstanding ∧
      (enableChanged on s).channel.nextTag = s.channel.nextTag ∧ (enableChanged on s).reporting.released = s.reporting.released ∧
      (enableChanged on s).intake.expected = s.intake.expected ∧ (enableChanged on s).pool.taken = s.pool.taken ∧
      (enableChanged on s).pool.finished = s.pool.finished := by
  unfold enableChanged
  (try dsimp only)
  (repeat' split) <;> simp_all

@[simp] theorem dataFails_frame (i : StrokeId) (s : State) :
    (dataFails i s).port = s.port ∧ (dataFails i s).engine = s.engine ∧ (dataFails i s).reporting = s.reporting ∧ (dataFails i s).intake = s.intake ∧
      (dataFails i s).domains = s.domains ∧ (dataFails i s).arrayMode = s.arrayMode ∧ (dataFails i s).array = s.array ∧
      (dataFails i s).pending = s.pending ∧ (dataFails i s).channel.outstanding = s.channel.outstanding ∧
      (dataFails i s).channel.nextTag = s.channel.nextTag ∧ (dataFails i s).pool.taken = s.pool.taken ∧
      (dataFails i s).pool.finished = s.pool.finished ∧ (dataFails i s).pool.cancelList = s.pool.cancelList ∧
      (dataFails i s).refresh.tempClass = s.refresh.tempClass ∧ (dataFails i s).refresh.sampleTimer = s.refresh.sampleTimer ∧
      (dataFails i s).refresh.breaches = s.refresh.breaches := by
  unfold dataFails
  (try dsimp only)
  (repeat' split) <;> simp_all

@[simp] theorem dropAllArming_frame (s : State) :
    (dropAllArming s).port = s.port ∧ (dropAllArming s).engine = s.engine ∧ (dropAllArming s).channel = s.channel ∧
      (dropAllArming s).reporting = s.reporting ∧ (dropAllArming s).intake = s.intake ∧ (dropAllArming s).pool = s.pool ∧
      (dropAllArming s).table = s.table ∧ (dropAllArming s).strokes = s.strokes ∧ (dropAllArming s).domains = s.domains ∧
      (dropAllArming s).arrayMode = s.arrayMode ∧ (dropAllArming s).array = s.array ∧ (dropAllArming s).pending = s.pending ∧
      (dropAllArming s).refresh.tempClass = s.refresh.tempClass ∧ (dropAllArming s).refresh.sampleTimer = s.refresh.sampleTimer ∧
      (dropAllArming s).refresh.breaches = s.refresh.breaches := by
  unfold dropAllArming
  (try dsimp only)
  (repeat' split) <;> simp_all

@[simp] theorem resetBlocks_frame (s : State) :
    (resetBlocks s).port = s.port ∧ (resetBlocks s).arrayMode = s.arrayMode ∧ (resetBlocks s).array = s.array ∧ (resetBlocks s).pending = s.pending ∧
      (resetBlocks s).engine.haltReason = s.engine.haltReason ∧ (resetBlocks s).refresh.tempClass = s.refresh.tempClass ∧
      (resetBlocks s).refresh.sampleTimer = s.refresh.sampleTimer ∧ (resetBlocks s).refresh.breaches = s.refresh.breaches := by
  unfold resetBlocks
  (try dsimp only)
  (repeat' split) <;> simp_all

@[simp] theorem engineReset_frame (s : State) :
    (engineReset s).array = s.array ∧ (engineReset s).pending = s.pending ∧ (engineReset s).engine.haltReason = s.engine.haltReason ∧
      (engineReset s).refresh.tempClass = s.refresh.tempClass ∧ (engineReset s).refresh.sampleTimer = s.refresh.sampleTimer ∧
      (engineReset s).refresh.breaches = s.refresh.breaches ∧ (engineReset s).arrayMode.mode = s.arrayMode.mode ∧
      (engineReset s).arrayMode.wakeTimer = s.arrayMode.wakeTimer ∧ (engineReset s).arrayMode.forcedSleep = s.arrayMode.forcedSleep := by
  unfold engineReset
  (try dsimp only)
  (repeat' split) <;> simp_all

@[simp] theorem forceSleep_frame (s : State) :
    (forceSleep s).port = s.port ∧ (forceSleep s).engine = s.engine ∧ (forceSleep s).intake = s.intake ∧ (forceSleep s).pending = s.pending ∧
      (forceSleep s).channel.outstanding = s.channel.outstanding ∧ (forceSleep s).channel.nextTag = s.channel.nextTag ∧
      (forceSleep s).reporting.released = s.reporting.released ∧ (forceSleep s).pool.taken = s.pool.taken ∧
      (forceSleep s).pool.finished = s.pool.finished ∧ (forceSleep s).pool.cancelList = s.pool.cancelList ∧
      (forceSleep s).refresh.tempClass = s.refresh.tempClass ∧ (forceSleep s).refresh.sampleTimer = s.refresh.sampleTimer ∧
      (forceSleep s).refresh.breaches = s.refresh.breaches := by
  unfold forceSleep
  (try dsimp only)
  (repeat' split) <;> simp_all

@[simp] theorem pinReset_frame (s : State) :
    (pinReset s).pending = s.pending ∧ (pinReset s).refresh.tempClass = s.refresh.tempClass ∧
      (pinReset s).refresh.sampleTimer = s.refresh.sampleTimer ∧ (pinReset s).refresh.breaches = s.refresh.breaches := by
  unfold pinReset
  (try dsimp only)
  (repeat' split) <;> simp_all

@[simp] theorem pollChanged_frame (before : BitVec 2) (s : State) :
    (pollChanged before s).port = s.port ∧ (pollChanged before s).engine = s.engine ∧ (pollChanged before s).channel = s.channel ∧
      (pollChanged before s).reporting = s.reporting ∧ (pollChanged before s).pool = s.pool ∧ (pollChanged before s).table = s.table ∧
      (pollChanged before s).strokes = s.strokes ∧ (pollChanged before s).banks = s.banks ∧ (pollChanged before s).refresh = s.refresh ∧
      (pollChanged before s).regions = s.regions ∧ (pollChanged before s).domains = s.domains ∧ (pollChanged before s).arrayMode = s.arrayMode ∧
      (pollChanged before s).array = s.array ∧ (pollChanged before s).pending = s.pending ∧
      (pollChanged before s).intake.expected = s.intake.expected ∧ (pollChanged before s).intake.records = s.intake.records := by
  unfold pollChanged
  (try dsimp only)
  (repeat' split) <;> simp_all

@[simp] theorem idleCodeChanged_frame (before : BitVec 3) (s : State) :
    (idleCodeChanged before s).port = s.port ∧ (idleCodeChanged before s).engine = s.engine ∧ (idleCodeChanged before s).channel = s.channel ∧
      (idleCodeChanged before s).reporting = s.reporting ∧ (idleCodeChanged before s).intake = s.intake ∧ (idleCodeChanged before s).pool = s.pool ∧
      (idleCodeChanged before s).table = s.table ∧ (idleCodeChanged before s).strokes = s.strokes ∧ (idleCodeChanged before s).banks = s.banks ∧
      (idleCodeChanged before s).refresh = s.refresh ∧ (idleCodeChanged before s).regions = s.regions ∧
      (idleCodeChanged before s).domains = s.domains ∧ (idleCodeChanged before s).array = s.array ∧ (idleCodeChanged before s).pending = s.pending ∧
      (idleCodeChanged before s).arrayMode.mode = s.arrayMode.mode ∧ (idleCodeChanged before s).arrayMode.wakeTimer = s.arrayMode.wakeTimer ∧
      (idleCodeChanged before s).arrayMode.forcedSleep = s.arrayMode.forcedSleep := by
  unfold idleCodeChanged
  (try dsimp only)
  (repeat' split) <;> simp_all

@[simp] theorem enableFollow_frame (before : Bool) (s : State) :
    (enableFollow before s).table = s.table ∧ (enableFollow before s).strokes = s.strokes ∧ (enableFollow before s).banks = s.banks ∧
      (enableFollow before s).refresh = s.refresh ∧ (enableFollow before s).regions = s.regions ∧ (enableFollow before s).domains = s.domains ∧
      (enableFollow before s).arrayMode = s.arrayMode ∧ (enableFollow before s).array = s.array ∧ (enableFollow before s).pending = s.pending ∧
      (enableFollow before s).port.enable = s.port.enable ∧ (enableFollow before s).port.poll = s.port.poll ∧
      (enableFollow before s).port.idleSleep = s.port.idleSleep ∧ (enableFollow before s).port.response = s.port.response ∧
      (enableFollow before s).port.exbase = s.port.exbase ∧ (enableFollow before s).port.resetHeld = s.port.resetHeld ∧
      (enableFollow before s).port.cancelStatus = s.port.cancelStatus ∧ (enableFollow before s).channel.outstanding = s.channel.outstanding ∧
      (enableFollow before s).channel.nextTag = s.channel.nextTag ∧ (enableFollow before s).reporting.released = s.reporting.released ∧
      (enableFollow before s).intake.expected = s.intake.expected ∧ (enableFollow before s).pool.taken = s.pool.taken ∧
      (enableFollow before s).pool.finished = s.pool.finished := by
  unfold enableFollow
  (try dsimp only)
  (repeat' split) <;> simp_all

@[simp] theorem writeControl_frame (v : Word) (s : State) :
    (writeControl v s).array = s.array ∧ (writeControl v s).pending = s.pending ∧ (writeControl v s).refresh.tempClass = s.refresh.tempClass ∧
      (writeControl v s).refresh.sampleTimer = s.refresh.sampleTimer ∧ (writeControl v s).refresh.breaches = s.refresh.breaches ∧
      (writeControl v s).arrayMode.mode = s.arrayMode.mode ∧ (writeControl v s).arrayMode.wakeTimer = s.arrayMode.wakeTimer ∧
      (writeControl v s).arrayMode.forcedSleep = s.arrayMode.forcedSleep := by
  unfold writeControl
  (try dsimp only)
  (repeat' split) <;> simp_all

@[simp] theorem retryIntake_frame (s : State) :
    (retryIntake s).port = s.port ∧ (retryIntake s).engine = s.engine ∧ (retryIntake s).reporting = s.reporting ∧ (retryIntake s).pool = s.pool ∧
      (retryIntake s).table = s.table ∧ (retryIntake s).strokes = s.strokes ∧ (retryIntake s).banks = s.banks ∧ (retryIntake s).refresh = s.refresh ∧
      (retryIntake s).regions = s.regions ∧ (retryIntake s).domains = s.domains ∧ (retryIntake s).arrayMode = s.arrayMode ∧
      (retryIntake s).array = s.array ∧ (retryIntake s).pending = s.pending ∧ (retryIntake s).channel.outstanding = s.channel.outstanding ∧
      (retryIntake s).channel.nextTag = s.channel.nextTag ∧ (retryIntake s).intake.expected = s.intake.expected ∧
      (retryIntake s).intake.records = s.intake.records := by
  unfold retryIntake
  (try dsimp only)
  (repeat' split) <;> simp_all

@[simp] theorem nudgeIntake_frame (s : State) :
    (nudgeIntake s).port = s.port ∧ (nudgeIntake s).engine = s.engine ∧ (nudgeIntake s).reporting = s.reporting ∧ (nudgeIntake s).pool = s.pool ∧
      (nudgeIntake s).table = s.table ∧ (nudgeIntake s).strokes = s.strokes ∧ (nudgeIntake s).banks = s.banks ∧ (nudgeIntake s).refresh = s.refresh ∧
      (nudgeIntake s).regions = s.regions ∧ (nudgeIntake s).domains = s.domains ∧ (nudgeIntake s).arrayMode = s.arrayMode ∧
      (nudgeIntake s).array = s.array ∧ (nudgeIntake s).pending = s.pending ∧ (nudgeIntake s).channel.outstanding = s.channel.outstanding ∧
      (nudgeIntake s).channel.nextTag = s.channel.nextTag ∧ (nudgeIntake s).intake.expected = s.intake.expected ∧
      (nudgeIntake s).intake.records = s.intake.records := by
  unfold nudgeIntake
  (try dsimp only)
  (repeat' split) <;> simp_all

@[simp] theorem reissue_frame (a : Access) (s : State) :
    (reissue a s).port = s.port ∧ (reissue a s).engine = s.engine ∧ (reissue a s).reporting = s.reporting ∧ (reissue a s).intake = s.intake ∧
      (reissue a s).pool = s.pool ∧ (reissue a s).table = s.table ∧ (reissue a s).strokes = s.strokes ∧ (reissue a s).banks = s.banks ∧
      (reissue a s).refresh = s.refresh ∧ (reissue a s).regions = s.regions ∧ (reissue a s).domains = s.domains ∧
      (reissue a s).arrayMode = s.arrayMode ∧ (reissue a s).array = s.array ∧ (reissue a s).pending = s.pending ∧
      (reissue a s).channel.nextTag = s.channel.nextTag := by
  unfold reissue
  (try dsimp only)
  (repeat' split) <;> simp_all

@[simp] theorem beginRun_frame (firstPage : Word) (s : State) :
    (beginRun firstPage s).port = s.port ∧ (beginRun firstPage s).table = s.table ∧ (beginRun firstPage s).strokes = s.strokes ∧
      (beginRun firstPage s).banks = s.banks ∧ (beginRun firstPage s).refresh = s.refresh ∧ (beginRun firstPage s).regions = s.regions ∧
      (beginRun firstPage s).domains = s.domains ∧ (beginRun firstPage s).arrayMode = s.arrayMode ∧ (beginRun firstPage s).array = s.array ∧
      (beginRun firstPage s).pending = s.pending ∧ (beginRun firstPage s).engine.haltReason = s.engine.haltReason ∧
      (beginRun firstPage s).channel.outstanding = s.channel.outstanding ∧ (beginRun firstPage s).channel.nextTag = s.channel.nextTag ∧
      (beginRun firstPage s).pool.cancelList = s.pool.cancelList := by
  unfold beginRun
  (try dsimp only)
  (repeat' split) <;> simp_all

@[simp] theorem startReadDone_frame (firstPage : Word) (s : State) :
    (startReadDone firstPage s).table = s.table ∧ (startReadDone firstPage s).strokes = s.strokes ∧ (startReadDone firstPage s).banks = s.banks ∧
      (startReadDone firstPage s).refresh = s.refresh ∧ (startReadDone firstPage s).regions = s.regions ∧
      (startReadDone firstPage s).domains = s.domains ∧ (startReadDone firstPage s).arrayMode = s.arrayMode ∧
      (startReadDone firstPage s).array = s.array ∧ (startReadDone firstPage s).pending = s.pending ∧
      (startReadDone firstPage s).port.enable = s.port.enable ∧ (startReadDone firstPage s).port.poll = s.port.poll ∧
      (startReadDone firstPage s).port.idleSleep = s.port.idleSleep ∧ (startReadDone firstPage s).port.response = s.port.response ∧
      (startReadDone firstPage s).port.exbase = s.port.exbase ∧ (startReadDone firstPage s).port.resetHeld = s.port.resetHeld ∧
      (startReadDone firstPage s).port.cancelStatus = s.port.cancelStatus ∧ (startReadDone firstPage s).channel.outstanding = s.channel.outstanding ∧
      (startReadDone firstPage s).channel.nextTag = s.channel.nextTag := by
  unfold startReadDone
  (try dsimp only)
  (repeat' split) <;> simp_all

@[simp] theorem tallyDone_frame (p : Word) (s : State) :
    (tallyDone p s).engine = s.engine ∧ (tallyDone p s).pool = s.pool ∧ (tallyDone p s).table = s.table ∧ (tallyDone p s).strokes = s.strokes ∧
      (tallyDone p s).banks = s.banks ∧ (tallyDone p s).refresh = s.refresh ∧ (tallyDone p s).regions = s.regions ∧
      (tallyDone p s).domains = s.domains ∧ (tallyDone p s).arrayMode = s.arrayMode ∧ (tallyDone p s).array = s.array ∧
      (tallyDone p s).pending = s.pending ∧ (tallyDone p s).port.enable = s.port.enable ∧ (tallyDone p s).port.poll = s.port.poll ∧
      (tallyDone p s).port.idleSleep = s.port.idleSleep ∧ (tallyDone p s).port.response = s.port.response ∧
      (tallyDone p s).port.exbase = s.port.exbase ∧ (tallyDone p s).port.resetHeld = s.port.resetHeld ∧
      (tallyDone p s).port.cancelStatus = s.port.cancelStatus ∧ (tallyDone p s).channel.outstanding = s.channel.outstanding ∧
      (tallyDone p s).channel.nextTag = s.channel.nextTag ∧ (tallyDone p s).reporting.released = s.reporting.released ∧
      (tallyDone p s).intake.expected = s.intake.expected ∧ (tallyDone p s).intake.records = s.intake.records := by
  unfold tallyDone
  (try dsimp only)
  (repeat' split) <;> simp_all

@[simp] theorem nextDone_frame (n : Word) (s : State) :
    (nextDone n s).engine = s.engine ∧ (nextDone n s).pool = s.pool ∧ (nextDone n s).table = s.table ∧ (nextDone n s).strokes = s.strokes ∧
      (nextDone n s).banks = s.banks ∧ (nextDone n s).refresh = s.refresh ∧ (nextDone n s).regions = s.regions ∧ (nextDone n s).domains = s.domains ∧
      (nextDone n s).arrayMode = s.arrayMode ∧ (nextDone n s).array = s.array ∧ (nextDone n s).pending = s.pending ∧
      (nextDone n s).port.enable = s.port.enable ∧ (nextDone n s).port.poll = s.port.poll ∧ (nextDone n s).port.idleSleep = s.port.idleSleep ∧
      (nextDone n s).port.response = s.port.response ∧ (nextDone n s).port.exbase = s.port.exbase ∧
      (nextDone n s).port.resetHeld = s.port.resetHeld ∧ (nextDone n s).port.cancelStatus = s.port.cancelStatus ∧
      (nextDone n s).channel.outstanding = s.channel.outstanding ∧ (nextDone n s).channel.nextTag = s.channel.nextTag ∧
      (nextDone n s).reporting.released = s.reporting.released ∧ (nextDone n s).intake.expected = s.intake.expected ∧
      (nextDone n s).intake.records = s.intake.records := by
  unfold nextDone
  (try dsimp only)
  (repeat' split) <;> simp_all

@[simp] theorem leavePage_frame (s : State) :
    (leavePage s).port = s.port ∧ (leavePage s).engine = s.engine ∧ (leavePage s).pool = s.pool ∧ (leavePage s).table = s.table ∧
      (leavePage s).strokes = s.strokes ∧ (leavePage s).banks = s.banks ∧ (leavePage s).refresh = s.refresh ∧ (leavePage s).regions = s.regions ∧
      (leavePage s).domains = s.domains ∧ (leavePage s).arrayMode = s.arrayMode ∧ (leavePage s).array = s.array ∧ (leavePage s).pending = s.pending ∧
      (leavePage s).channel.outstanding = s.channel.outstanding ∧ (leavePage s).channel.nextTag = s.channel.nextTag ∧
      (leavePage s).reporting.released = s.reporting.released ∧ (leavePage s).intake.expected = s.intake.expected := by
  unfold leavePage
  (try dsimp only)
  (repeat' split) <;> simp_all

@[simp] theorem firstSeqDone_frame (f : Word) (s : State) :
    (firstSeqDone f s).engine = s.engine ∧ (firstSeqDone f s).pool = s.pool ∧ (firstSeqDone f s).table = s.table ∧
      (firstSeqDone f s).strokes = s.strokes ∧ (firstSeqDone f s).banks = s.banks ∧ (firstSeqDone f s).refresh = s.refresh ∧
      (firstSeqDone f s).regions = s.regions ∧ (firstSeqDone f s).domains = s.domains ∧ (firstSeqDone f s).arrayMode = s.arrayMode ∧
      (firstSeqDone f s).array = s.array ∧ (firstSeqDone f s).pending = s.pending ∧ (firstSeqDone f s).port.enable = s.port.enable ∧
      (firstSeqDone f s).port.poll = s.port.poll ∧ (firstSeqDone f s).port.idleSleep = s.port.idleSleep ∧
      (firstSeqDone f s).port.response = s.port.response ∧ (firstSeqDone f s).port.exbase = s.port.exbase ∧
      (firstSeqDone f s).port.resetHeld = s.port.resetHeld ∧ (firstSeqDone f s).port.cancelStatus = s.port.cancelStatus ∧
      (firstSeqDone f s).channel.outstanding = s.channel.outstanding ∧ (firstSeqDone f s).channel.nextTag = s.channel.nextTag ∧
      (firstSeqDone f s).reporting.released = s.reporting.released ∧ (firstSeqDone f s).intake.expected = s.intake.expected := by
  unfold firstSeqDone
  (try dsimp only)
  (repeat' split) <;> simp_all

@[simp] theorem takeOrder_frame (e : EntryWords) (s : State) :
    (takeOrder e s).port = s.port ∧ (takeOrder e s).engine = s.engine ∧ (takeOrder e s).pending = s.pending ∧
      (takeOrder e s).channel.outstanding = s.channel.outstanding ∧ (takeOrder e s).channel.nextTag = s.channel.nextTag ∧
      (takeOrder e s).reporting.released = s.reporting.released ∧ (takeOrder e s).refresh.tempClass = s.refresh.tempClass ∧
      (takeOrder e s).refresh.sampleTimer = s.refresh.sampleTimer ∧ (takeOrder e s).refresh.breaches = s.refresh.breaches ∧
      (takeOrder e s).arrayMode.forcedSleep = s.arrayMode.forcedSleep := by
  unfold takeOrder
  (try dsimp only)
  (repeat' split) <;> simp_all

@[simp] theorem entryDone_frame (e : EntryWords) (s : State) :
    (entryDone e s).engine = s.engine ∧ (entryDone e s).pending = s.pending ∧ (entryDone e s).port.enable = s.port.enable ∧
      (entryDone e s).port.poll = s.port.poll ∧ (entryDone e s).port.idleSleep = s.port.idleSleep ∧ (entryDone e s).port.response = s.port.response ∧
      (entryDone e s).port.exbase = s.port.exbase ∧ (entryDone e s).port.resetHeld = s.port.resetHeld ∧
      (entryDone e s).port.cancelStatus = s.port.cancelStatus ∧ (entryDone e s).channel.outstanding = s.channel.outstanding ∧
      (entryDone e s).channel.nextTag = s.channel.nextTag ∧ (entryDone e s).reporting.released = s.reporting.released ∧
      (entryDone e s).refresh.tempClass = s.refresh.tempClass ∧ (entryDone e s).refresh.sampleTimer = s.refresh.sampleTimer ∧
      (entryDone e s).refresh.breaches = s.refresh.breaches ∧ (entryDone e s).arrayMode.forcedSleep = s.arrayMode.forcedSleep := by
  unfold entryDone
  (try dsimp only)
  (repeat' split) <;> simp_all

@[simp] theorem stalledPoolTest_frame (s : State) :
    (stalledPoolTest s).port = s.port ∧ (stalledPoolTest s).engine = s.engine ∧ (stalledPoolTest s).reporting = s.reporting ∧
      (stalledPoolTest s).pool = s.pool ∧ (stalledPoolTest s).table = s.table ∧ (stalledPoolTest s).strokes = s.strokes ∧
      (stalledPoolTest s).banks = s.banks ∧ (stalledPoolTest s).refresh = s.refresh ∧ (stalledPoolTest s).regions = s.regions ∧
      (stalledPoolTest s).domains = s.domains ∧ (stalledPoolTest s).arrayMode = s.arrayMode ∧ (stalledPoolTest s).array = s.array ∧
      (stalledPoolTest s).pending = s.pending ∧ (stalledPoolTest s).channel.outstanding = s.channel.outstanding ∧
      (stalledPoolTest s).channel.nextTag = s.channel.nextTag ∧ (stalledPoolTest s).intake.expected = s.intake.expected ∧
      (stalledPoolTest s).intake.records = s.intake.records := by
  unfold stalledPoolTest
  (try dsimp only)
  (repeat' split) <;> simp_all

@[simp] theorem stalledPagesTest_frame (s : State) :
    (stalledPagesTest s).port = s.port ∧ (stalledPagesTest s).engine = s.engine ∧ (stalledPagesTest s).reporting = s.reporting ∧
      (stalledPagesTest s).pool = s.pool ∧ (stalledPagesTest s).table = s.table ∧ (stalledPagesTest s).strokes = s.strokes ∧
      (stalledPagesTest s).banks = s.banks ∧ (stalledPagesTest s).refresh = s.refresh ∧ (stalledPagesTest s).regions = s.regions ∧
      (stalledPagesTest s).domains = s.domains ∧ (stalledPagesTest s).arrayMode = s.arrayMode ∧ (stalledPagesTest s).array = s.array ∧
      (stalledPagesTest s).pending = s.pending ∧ (stalledPagesTest s).channel.outstanding = s.channel.outstanding ∧
      (stalledPagesTest s).channel.nextTag = s.channel.nextTag ∧ (stalledPagesTest s).intake.expected = s.intake.expected ∧
      (stalledPagesTest s).intake.records = s.intake.records := by
  unfold stalledPagesTest
  (try dsimp only)
  (repeat' split) <;> simp_all

@[simp] theorem resultDone_frame (a : Access) (s : State) :
    (resultDone a s).port = s.port ∧ (resultDone a s).engine = s.engine ∧ (resultDone a s).reporting = s.reporting ∧
      (resultDone a s).intake = s.intake ∧ (resultDone a s).pool = s.pool ∧ (resultDone a s).table = s.table ∧ (resultDone a s).strokes = s.strokes ∧
      (resultDone a s).banks = s.banks ∧ (resultDone a s).refresh = s.refresh ∧ (resultDone a s).regions = s.regions ∧
      (resultDone a s).domains = s.domains ∧ (resultDone a s).arrayMode = s.arrayMode ∧ (resultDone a s).array = s.array ∧
      (resultDone a s).pending = s.pending ∧ (resultDone a s).channel.outstanding = s.channel.outstanding ∧
      (resultDone a s).channel.nextTag = s.channel.nextTag := by
  unfold resultDone
  (try dsimp only)
  (repeat' split) <;> simp_all

@[simp] theorem finishOrder_frame (i : SlotId) (o : PoolOrder) (s : State) :
    (finishOrder i o s).port = s.port ∧ (finishOrder i o s).engine = s.engine ∧ (finishOrder i o s).pending = s.pending ∧
      (finishOrder i o s).channel.outstanding = s.channel.outstanding ∧ (finishOrder i o s).channel.nextTag = s.channel.nextTag ∧
      (finishOrder i o s).reporting.released = s.reporting.released ∧ (finishOrder i o s).intake.expected = s.intake.expected ∧
      (finishOrder i o s).refresh.tempClass = s.refresh.tempClass ∧ (finishOrder i o s).refresh.sampleTimer = s.refresh.sampleTimer ∧
      (finishOrder i o s).refresh.breaches = s.refresh.breaches ∧ (finishOrder i o s).arrayMode.forcedSleep = s.arrayMode.forcedSleep := by
  unfold finishOrder
  (try dsimp only)
  (repeat' split) <;> simp_all

@[simp] theorem estateDone_frame (a : Access) (s : State) :
    (estateDone a s).pending = s.pending ∧ (estateDone a s).port.enable = s.port.enable ∧ (estateDone a s).port.poll = s.port.poll ∧
      (estateDone a s).port.idleSleep = s.port.idleSleep ∧ (estateDone a s).port.response = s.port.response ∧
      (estateDone a s).port.exbase = s.port.exbase ∧ (estateDone a s).port.resetHeld = s.port.resetHeld ∧
      (estateDone a s).port.cancelStatus = s.port.cancelStatus ∧ (estateDone a s).engine.haltReason = s.engine.haltReason ∧
      (estateDone a s).channel.outstanding = s.channel.outstanding ∧ (estateDone a s).channel.nextTag = s.channel.nextTag ∧
      (estateDone a s).reporting.released = s.reporting.released ∧ (estateDone a s).intake.expected = s.intake.expected ∧
      (estateDone a s).refresh.tempClass = s.refresh.tempClass ∧ (estateDone a s).refresh.sampleTimer = s.refresh.sampleTimer ∧
      (estateDone a s).refresh.breaches = s.refresh.breaches ∧ (estateDone a s).arrayMode.forcedSleep = s.arrayMode.forcedSleep := by
  unfold estateDone
  (try dsimp only)
  (repeat' split) <;> simp_all

@[simp] theorem headerDone_frame (a : Access) (s : State) :
    (headerDone a s).channel = s.channel ∧ (headerDone a s).reporting = s.reporting ∧ (headerDone a s).table = s.table ∧
      (headerDone a s).strokes = s.strokes ∧ (headerDone a s).banks = s.banks ∧ (headerDone a s).refresh = s.refresh ∧
      (headerDone a s).regions = s.regions ∧ (headerDone a s).domains = s.domains ∧ (headerDone a s).arrayMode = s.arrayMode ∧
      (headerDone a s).array = s.array ∧ (headerDone a s).pending = s.pending ∧ (headerDone a s).port.enable = s.port.enable ∧
      (headerDone a s).port.poll = s.port.poll ∧ (headerDone a s).port.idleSleep = s.port.idleSleep ∧
      (headerDone a s).port.response = s.port.response ∧ (headerDone a s).port.exbase = s.port.exbase ∧
      (headerDone a s).port.resetHeld = s.port.resetHeld ∧ (headerDone a s).port.cancelStatus = s.port.cancelStatus ∧
      (headerDone a s).engine.haltReason = s.engine.haltReason ∧ (headerDone a s).intake.expected = s.intake.expected ∧
      (headerDone a s).pool.taken = s.pool.taken ∧ (headerDone a s).pool.finished = s.pool.finished := by
  unfold headerDone
  (try dsimp only)
  (repeat' split) <;> simp_all

@[simp] theorem releaseDone_frame (s : State) :
    (releaseDone s).table = s.table ∧ (releaseDone s).strokes = s.strokes ∧ (releaseDone s).banks = s.banks ∧ (releaseDone s).refresh = s.refresh ∧
      (releaseDone s).regions = s.regions ∧ (releaseDone s).domains = s.domains ∧ (releaseDone s).arrayMode = s.arrayMode ∧
      (releaseDone s).array = s.array ∧ (releaseDone s).pending = s.pending ∧ (releaseDone s).port.enable = s.port.enable ∧
      (releaseDone s).port.poll = s.port.poll ∧ (releaseDone s).port.idleSleep = s.port.idleSleep ∧ (releaseDone s).port.response = s.port.response ∧
      (releaseDone s).port.exbase = s.port.exbase ∧ (releaseDone s).port.resetHeld = s.port.resetHeld ∧
      (releaseDone s).port.cancelStatus = s.port.cancelStatus ∧ (releaseDone s).engine.haltReason = s.engine.haltReason ∧
      (releaseDone s).channel.outstanding = s.channel.outstanding ∧ (releaseDone s).channel.nextTag = s.channel.nextTag ∧
      (releaseDone s).intake.expected = s.intake.expected ∧ (releaseDone s).pool.taken = s.pool.taken ∧
      (releaseDone s).pool.finished = s.pool.finished := by
  unfold releaseDone
  (try dsimp only)
  (repeat' split) <;> simp_all

@[simp] theorem issueOne_frame (l : Lane) (s : State) :
    (issueOne l s).port = s.port ∧ (issueOne l s).engine = s.engine ∧ (issueOne l s).reporting = s.reporting ∧ (issueOne l s).intake = s.intake ∧
      (issueOne l s).domains = s.domains ∧ (issueOne l s).arrayMode = s.arrayMode ∧ (issueOne l s).array = s.array ∧
      (issueOne l s).pending = s.pending ∧ (issueOne l s).channel.outstanding = s.channel.outstanding ∧
      (issueOne l s).channel.nextTag = s.channel.nextTag ∧ (issueOne l s).pool.taken = s.pool.taken ∧
      (issueOne l s).pool.finished = s.pool.finished ∧ (issueOne l s).pool.cancelList = s.pool.cancelList ∧
      (issueOne l s).refresh.tempClass = s.refresh.tempClass ∧ (issueOne l s).refresh.sampleTimer = s.refresh.sampleTimer ∧
      (issueOne l s).refresh.breaches = s.refresh.breaches := by
  unfold issueOne
  (try dsimp only)
  (repeat' split) <;> simp_all

@[simp] theorem fillBuffer_frame (r : StrokeRecord) (data : Line) (s : State) :
    (fillBuffer r data s).port = s.port ∧ (fillBuffer r data s).engine = s.engine ∧ (fillBuffer r data s).channel = s.channel ∧
      (fillBuffer r data s).reporting = s.reporting ∧ (fillBuffer r data s).intake = s.intake ∧ (fillBuffer r data s).pool = s.pool ∧
      (fillBuffer r data s).table = s.table ∧ (fillBuffer r data s).banks = s.banks ∧ (fillBuffer r data s).refresh = s.refresh ∧
      (fillBuffer r data s).regions = s.regions ∧ (fillBuffer r data s).domains = s.domains ∧ (fillBuffer r data s).arrayMode = s.arrayMode ∧
      (fillBuffer r data s).array = s.array ∧ (fillBuffer r data s).pending = s.pending ∧ (fillBuffer r data s).strokes.records = s.strokes.records ∧
      (fillBuffer r data s).strokes.lastGranted = s.strokes.lastGranted := by
  unfold fillBuffer
  (try dsimp only)
  (repeat' split) <;> simp_all

@[simp] theorem updateStroke_frame (i : StrokeId) (f : StrokeRecord → StrokeRecord) (s : State) :
    (updateStroke i f s).port = s.port ∧ (updateStroke i f s).engine = s.engine ∧ (updateStroke i f s).channel = s.channel ∧
      (updateStroke i f s).reporting = s.reporting ∧ (updateStroke i f s).intake = s.intake ∧ (updateStroke i f s).pool = s.pool ∧
      (updateStroke i f s).table = s.table ∧ (updateStroke i f s).banks = s.banks ∧ (updateStroke i f s).refresh = s.refresh ∧
      (updateStroke i f s).regions = s.regions ∧ (updateStroke i f s).domains = s.domains ∧ (updateStroke i f s).arrayMode = s.arrayMode ∧
      (updateStroke i f s).array = s.array ∧ (updateStroke i f s).pending = s.pending ∧
      (updateStroke i f s).strokes.lastGranted = s.strokes.lastGranted := by
  unfold updateStroke
  (try dsimp only)
  (repeat' split) <;> simp_all

@[simp] theorem placeWrite_frame (r : StrokeRecord) (a : Nat) (data : Line) (s : State) :
    (placeWrite r a data s).port = s.port ∧ (placeWrite r a data s).engine = s.engine ∧ (placeWrite r a data s).reporting = s.reporting ∧
      (placeWrite r a data s).intake = s.intake ∧ (placeWrite r a data s).domains = s.domains ∧ (placeWrite r a data s).arrayMode = s.arrayMode ∧
      (placeWrite r a data s).array = s.array ∧ (placeWrite r a data s).pending = s.pending ∧
      (placeWrite r a data s).channel.outstanding = s.channel.outstanding ∧ (placeWrite r a data s).channel.nextTag = s.channel.nextTag ∧
      (placeWrite r a data s).pool.taken = s.pool.taken ∧ (placeWrite r a data s).pool.finished = s.pool.finished ∧
      (placeWrite r a data s).pool.cancelList = s.pool.cancelList ∧ (placeWrite r a data s).refresh.tempClass = s.refresh.tempClass ∧
      (placeWrite r a data s).refresh.sampleTimer = s.refresh.sampleTimer ∧ (placeWrite r a data s).refresh.breaches = s.refresh.breaches := by
  unfold placeWrite
  (try dsimp only)
  (repeat' split) <;> simp_all

@[simp] theorem hostReadDone_frame (data : Line) (a : Access) (s : State) :
    (hostReadDone data a s).port = s.port ∧ (hostReadDone data a s).engine = s.engine ∧ (hostReadDone data a s).reporting = s.reporting ∧
      (hostReadDone data a s).intake = s.intake ∧ (hostReadDone data a s).domains = s.domains ∧ (hostReadDone data a s).arrayMode = s.arrayMode ∧
      (hostReadDone data a s).array = s.array ∧ (hostReadDone data a s).pending = s.pending ∧
      (hostReadDone data a s).channel.outstanding = s.channel.outstanding ∧ (hostReadDone data a s).channel.nextTag = s.channel.nextTag ∧
      (hostReadDone data a s).pool.taken = s.pool.taken ∧ (hostReadDone data a s).pool.finished = s.pool.finished ∧
      (hostReadDone data a s).pool.cancelList = s.pool.cancelList ∧ (hostReadDone data a s).refresh.tempClass = s.refresh.tempClass ∧
      (hostReadDone data a s).refresh.sampleTimer = s.refresh.sampleTimer ∧ (hostReadDone data a s).refresh.breaches = s.refresh.breaches := by
  unfold hostReadDone
  (try dsimp only)
  (repeat' split) <;> simp_all

@[simp] theorem hostWriteDone_frame (a : Access) (s : State) :
    (hostWriteDone a s).port = s.port ∧ (hostWriteDone a s).engine = s.engine ∧ (hostWriteDone a s).reporting = s.reporting ∧
      (hostWriteDone a s).intake = s.intake ∧ (hostWriteDone a s).domains = s.domains ∧ (hostWriteDone a s).arrayMode = s.arrayMode ∧
      (hostWriteDone a s).array = s.array ∧ (hostWriteDone a s).pending = s.pending ∧
      (hostWriteDone a s).channel.outstanding = s.channel.outstanding ∧ (hostWriteDone a s).channel.nextTag = s.channel.nextTag ∧
      (hostWriteDone a s).pool.taken = s.pool.taken ∧ (hostWriteDone a s).pool.finished = s.pool.finished ∧
      (hostWriteDone a s).pool.cancelList = s.pool.cancelList ∧ (hostWriteDone a s).refresh.tempClass = s.refresh.tempClass ∧
      (hostWriteDone a s).refresh.sampleTimer = s.refresh.sampleTimer ∧ (hostWriteDone a s).refresh.breaches = s.refresh.breaches := by
  unfold hostWriteDone
  (try dsimp only)
  (repeat' split) <;> simp_all

@[simp] theorem openDone_frame (b : BankId) (s : State) :
    (openDone b s).port = s.port ∧ (openDone b s).engine = s.engine ∧ (openDone b s).channel = s.channel ∧ (openDone b s).reporting = s.reporting ∧
      (openDone b s).intake = s.intake ∧ (openDone b s).pool = s.pool ∧ (openDone b s).table = s.table ∧ (openDone b s).strokes = s.strokes ∧
      (openDone b s).refresh = s.refresh ∧ (openDone b s).regions = s.regions ∧ (openDone b s).domains = s.domains ∧
      (openDone b s).arrayMode = s.arrayMode ∧ (openDone b s).array = s.array ∧ (openDone b s).pending = s.pending := by
  unfold openDone
  (try dsimp only)
  (repeat' split) <;> simp_all

@[simp] theorem readDelivered_frame (r : StrokeRecord) (n : Nat) (data : Line) (s : State) :
    (readDelivered r n data s).port = s.port ∧ (readDelivered r n data s).engine = s.engine ∧ (readDelivered r n data s).reporting = s.reporting ∧
      (readDelivered r n data s).intake = s.intake ∧ (readDelivered r n data s).domains = s.domains ∧
      (readDelivered r n data s).arrayMode = s.arrayMode ∧ (readDelivered r n data s).array = s.array ∧
      (readDelivered r n data s).pending = s.pending ∧ (readDelivered r n data s).channel.outstanding = s.channel.outstanding ∧
      (readDelivered r n data s).channel.nextTag = s.channel.nextTag ∧ (readDelivered r n data s).pool.taken = s.pool.taken ∧
      (readDelivered r n data s).pool.finished = s.pool.finished ∧ (readDelivered r n data s).pool.cancelList = s.pool.cancelList ∧
      (readDelivered r n data s).refresh.tempClass = s.refresh.tempClass ∧ (readDelivered r n data s).refresh.sampleTimer = s.refresh.sampleTimer ∧
      (readDelivered r n data s).refresh.breaches = s.refresh.breaches := by
  unfold readDelivered
  (try dsimp only)
  (repeat' split) <;> simp_all

@[simp] theorem handResult_frame (q : BankRequest) (c : Classification) (data : Line) (s : State) :
    (handResult q c data s).port = s.port ∧ (handResult q c data s).engine = s.engine ∧ (handResult q c data s).reporting = s.reporting ∧
      (handResult q c data s).intake = s.intake ∧ (handResult q c data s).domains = s.domains ∧ (handResult q c data s).arrayMode = s.arrayMode ∧
      (handResult q c data s).array = s.array ∧ (handResult q c data s).pending = s.pending ∧
      (handResult q c data s).channel.outstanding = s.channel.outstanding ∧ (handResult q c data s).channel.nextTag = s.channel.nextTag ∧
      (handResult q c data s).pool.taken = s.pool.taken ∧ (handResult q c data s).pool.finished = s.pool.finished ∧
      (handResult q c data s).pool.cancelList = s.pool.cancelList ∧ (handResult q c data s).refresh.tempClass = s.refresh.tempClass ∧
      (handResult q c data s).refresh.sampleTimer = s.refresh.sampleTimer ∧ (handResult q c data s).refresh.breaches = s.refresh.breaches := by
  unfold handResult
  (try dsimp only)
  (repeat' split) <;> simp_all

@[simp] theorem accessDone_frame (b : BankId) (q : BankRequest) (fresh : LineDisturbance) (s : State) :
    (accessDone b q fresh s).port = s.port ∧ (accessDone b q fresh s).engine = s.engine ∧ (accessDone b q fresh s).reporting = s.reporting ∧
      (accessDone b q fresh s).intake = s.intake ∧ (accessDone b q fresh s).domains = s.domains ∧ (accessDone b q fresh s).arrayMode = s.arrayMode ∧
      (accessDone b q fresh s).pending = s.pending ∧ (accessDone b q fresh s).channel.outstanding = s.channel.outstanding ∧
      (accessDone b q fresh s).channel.nextTag = s.channel.nextTag ∧ (accessDone b q fresh s).pool.taken = s.pool.taken ∧
      (accessDone b q fresh s).pool.finished = s.pool.finished ∧ (accessDone b q fresh s).pool.cancelList = s.pool.cancelList ∧
      (accessDone b q fresh s).refresh.tempClass = s.refresh.tempClass ∧ (accessDone b q fresh s).refresh.sampleTimer = s.refresh.sampleTimer ∧
      (accessDone b q fresh s).refresh.breaches = s.refresh.breaches := by
  unfold accessDone
  (try dsimp only)
  (repeat' split) <;> simp_all

@[simp] theorem closeDone_frame (b : BankId) (s : State) :
    (closeDone b s).port = s.port ∧ (closeDone b s).engine = s.engine ∧ (closeDone b s).intake = s.intake ∧ (closeDone b s).pending = s.pending ∧
      (closeDone b s).channel.outstanding = s.channel.outstanding ∧ (closeDone b s).channel.nextTag = s.channel.nextTag ∧
      (closeDone b s).reporting.released = s.reporting.released ∧ (closeDone b s).pool.taken = s.pool.taken ∧
      (closeDone b s).pool.finished = s.pool.finished ∧ (closeDone b s).pool.cancelList = s.pool.cancelList ∧
      (closeDone b s).refresh.tempClass = s.refresh.tempClass ∧ (closeDone b s).refresh.sampleTimer = s.refresh.sampleTimer ∧
      (closeDone b s).refresh.breaches = s.refresh.breaches ∧ (closeDone b s).arrayMode.forcedSleep = s.arrayMode.forcedSleep := by
  unfold closeDone
  (try dsimp only)
  (repeat' split) <;> simp_all

@[simp] theorem refreshDone_frame (b : BankId) (s : State) :
    (refreshDone b s).port = s.port ∧ (refreshDone b s).engine = s.engine ∧ (refreshDone b s).intake = s.intake ∧
      (refreshDone b s).pending = s.pending ∧ (refreshDone b s).channel.outstanding = s.channel.outstanding ∧
      (refreshDone b s).channel.nextTag = s.channel.nextTag ∧ (refreshDone b s).reporting.released = s.reporting.released ∧
      (refreshDone b s).pool.taken = s.pool.taken ∧ (refreshDone b s).pool.finished = s.pool.finished ∧
      (refreshDone b s).pool.cancelList = s.pool.cancelList ∧ (refreshDone b s).refresh.tempClass = s.refresh.tempClass ∧
      (refreshDone b s).refresh.sampleTimer = s.refresh.sampleTimer ∧ (refreshDone b s).refresh.breaches = s.refresh.breaches ∧
      (refreshDone b s).arrayMode.forcedSleep = s.arrayMode.forcedSleep := by
  unfold refreshDone
  (try dsimp only)
  (repeat' split) <;> simp_all

@[simp] theorem tickRaise_frame (b : BankId) (s : State) :
    (tickRaise b s).port = s.port ∧ (tickRaise b s).engine = s.engine ∧ (tickRaise b s).channel = s.channel ∧
      (tickRaise b s).reporting = s.reporting ∧ (tickRaise b s).intake = s.intake ∧ (tickRaise b s).pool = s.pool ∧ (tickRaise b s).table = s.table ∧
      (tickRaise b s).strokes = s.strokes ∧ (tickRaise b s).regions = s.regions ∧ (tickRaise b s).domains = s.domains ∧
      (tickRaise b s).arrayMode = s.arrayMode ∧ (tickRaise b s).array = s.array ∧ (tickRaise b s).pending = s.pending ∧
      (tickRaise b s).refresh.tempClass = s.refresh.tempClass ∧ (tickRaise b s).refresh.sampleTimer = s.refresh.sampleTimer ∧
      (tickRaise b s).refresh.breaches = s.refresh.breaches := by
  unfold tickRaise
  (try dsimp only)
  (repeat' split) <;> simp_all

@[simp] theorem loseRegions_frame (b : BankId) (s : State) :
    (loseRegions b s).port = s.port ∧ (loseRegions b s).engine = s.engine ∧ (loseRegions b s).channel = s.channel ∧
      (loseRegions b s).reporting = s.reporting ∧ (loseRegions b s).intake = s.intake ∧ (loseRegions b s).pool = s.pool ∧
      (loseRegions b s).table = s.table ∧ (loseRegions b s).strokes = s.strokes ∧ (loseRegions b s).banks = s.banks ∧
      (loseRegions b s).refresh = s.refresh ∧ (loseRegions b s).domains = s.domains ∧ (loseRegions b s).arrayMode = s.arrayMode ∧
      (loseRegions b s).array = s.array ∧ (loseRegions b s).pending = s.pending := by
  unfold loseRegions
  (try dsimp only)
  (repeat' split) <;> simp_all

@[simp] theorem stopOwner_frame (s : State) (n : OrderName) :
    (stopOwner s n).port = s.port ∧ (stopOwner s n).engine = s.engine ∧ (stopOwner s n).reporting = s.reporting ∧ (stopOwner s n).intake = s.intake ∧
      (stopOwner s n).domains = s.domains ∧ (stopOwner s n).arrayMode = s.arrayMode ∧ (stopOwner s n).array = s.array ∧
      (stopOwner s n).pending = s.pending ∧ (stopOwner s n).channel.outstanding = s.channel.outstanding ∧
      (stopOwner s n).channel.nextTag = s.channel.nextTag ∧ (stopOwner s n).pool.taken = s.pool.taken ∧
      (stopOwner s n).pool.finished = s.pool.finished ∧ (stopOwner s n).pool.cancelList = s.pool.cancelList ∧
      (stopOwner s n).strokes.records = s.strokes.records ∧ (stopOwner s n).strokes.lastGranted = s.strokes.lastGranted ∧
      (stopOwner s n).refresh.tempClass = s.refresh.tempClass ∧ (stopOwner s n).refresh.sampleTimer = s.refresh.sampleTimer ∧
      (stopOwner s n).refresh.breaches = s.refresh.breaches := by
  unfold stopOwner
  (try dsimp only)
  (repeat' split) <;> simp_all

@[simp] theorem breach_frame (b : BankId) (s : State) :
    (breach b s).engine = s.engine ∧ (breach b s).intake = s.intake ∧ (breach b s).domains = s.domains ∧ (breach b s).arrayMode = s.arrayMode ∧
      (breach b s).array = s.array ∧ (breach b s).pending = s.pending ∧ (breach b s).port.enable = s.port.enable ∧
      (breach b s).port.poll = s.port.poll ∧ (breach b s).port.idleSleep = s.port.idleSleep ∧ (breach b s).port.response = s.port.response ∧
      (breach b s).port.exbase = s.port.exbase ∧ (breach b s).port.resetHeld = s.port.resetHeld ∧
      (breach b s).port.cancelStatus = s.port.cancelStatus ∧ (breach b s).channel.outstanding = s.channel.outstanding ∧
      (breach b s).channel.nextTag = s.channel.nextTag ∧ (breach b s).reporting.released = s.reporting.released ∧
      (breach b s).pool.taken = s.pool.taken ∧ (breach b s).pool.finished = s.pool.finished ∧ (breach b s).pool.cancelList = s.pool.cancelList ∧
      (breach b s).strokes.records = s.strokes.records ∧ (breach b s).strokes.lastGranted = s.strokes.lastGranted ∧
      (breach b s).refresh.tempClass = s.refresh.tempClass ∧ (breach b s).refresh.sampleTimer = s.refresh.sampleTimer := by
  unfold breach
  (try dsimp only)
  (repeat' split) <;> simp_all

@[simp] theorem tickBank_frame (b : BankId) (s : State) :
    (tickBank b s).engine = s.engine ∧ (tickBank b s).intake = s.intake ∧ (tickBank b s).domains = s.domains ∧
      (tickBank b s).arrayMode = s.arrayMode ∧ (tickBank b s).array = s.array ∧ (tickBank b s).pending = s.pending ∧
      (tickBank b s).port.enable = s.port.enable ∧ (tickBank b s).port.poll = s.port.poll ∧ (tickBank b s).port.idleSleep = s.port.idleSleep ∧
      (tickBank b s).port.response = s.port.response ∧ (tickBank b s).port.exbase = s.port.exbase ∧
      (tickBank b s).port.resetHeld = s.port.resetHeld ∧ (tickBank b s).port.cancelStatus = s.port.cancelStatus ∧
      (tickBank b s).channel.outstanding = s.channel.outstanding ∧ (tickBank b s).channel.nextTag = s.channel.nextTag ∧
      (tickBank b s).reporting.released = s.reporting.released ∧ (tickBank b s).pool.taken = s.pool.taken ∧
      (tickBank b s).pool.finished = s.pool.finished ∧ (tickBank b s).pool.cancelList = s.pool.cancelList ∧
      (tickBank b s).strokes.records = s.strokes.records ∧ (tickBank b s).strokes.lastGranted = s.strokes.lastGranted ∧
      (tickBank b s).refresh.tempClass = s.refresh.tempClass ∧ (tickBank b s).refresh.sampleTimer = s.refresh.sampleTimer := by
  unfold tickBank
  (try dsimp only)
  (repeat' split) <;> simp_all

@[simp] theorem alertIfHot_frame (c : TempClass) (s : State) :
    (alertIfHot c s).engine = s.engine ∧ (alertIfHot c s).channel = s.channel ∧ (alertIfHot c s).reporting = s.reporting ∧
      (alertIfHot c s).intake = s.intake ∧ (alertIfHot c s).pool = s.pool ∧ (alertIfHot c s).table = s.table ∧ (alertIfHot c s).strokes = s.strokes ∧
      (alertIfHot c s).banks = s.banks ∧ (alertIfHot c s).refresh = s.refresh ∧ (alertIfHot c s).regions = s.regions ∧
      (alertIfHot c s).domains = s.domains ∧ (alertIfHot c s).arrayMode = s.arrayMode ∧ (alertIfHot c s).array = s.array ∧
      (alertIfHot c s).pending = s.pending ∧ (alertIfHot c s).port.enable = s.port.enable ∧ (alertIfHot c s).port.poll = s.port.poll ∧
      (alertIfHot c s).port.idleSleep = s.port.idleSleep ∧ (alertIfHot c s).port.response = s.port.response ∧
      (alertIfHot c s).port.exbase = s.port.exbase ∧ (alertIfHot c s).port.resetHeld = s.port.resetHeld ∧
      (alertIfHot c s).port.cancelStatus = s.port.cancelStatus := by
  unfold alertIfHot
  (try dsimp only)
  (repeat' split) <;> simp_all

@[simp] theorem changeClass_frame (c : TempClass) (s : State) :
    (changeClass c s).engine = s.engine ∧ (changeClass c s).intake = s.intake ∧ (changeClass c s).pool = s.pool ∧ (changeClass c s).table = s.table ∧
      (changeClass c s).strokes = s.strokes ∧ (changeClass c s).banks = s.banks ∧ (changeClass c s).regions = s.regions ∧
      (changeClass c s).domains = s.domains ∧ (changeClass c s).arrayMode = s.arrayMode ∧ (changeClass c s).array = s.array ∧
      (changeClass c s).pending = s.pending ∧ (changeClass c s).port.enable = s.port.enable ∧ (changeClass c s).port.poll = s.port.poll ∧
      (changeClass c s).port.idleSleep = s.port.idleSleep ∧ (changeClass c s).port.response = s.port.response ∧
      (changeClass c s).port.exbase = s.port.exbase ∧ (changeClass c s).port.resetHeld = s.port.resetHeld ∧
      (changeClass c s).port.cancelStatus = s.port.cancelStatus ∧ (changeClass c s).channel.outstanding = s.channel.outstanding ∧
      (changeClass c s).channel.nextTag = s.channel.nextTag ∧ (changeClass c s).reporting.released = s.reporting.released ∧
      (changeClass c s).refresh.sampleTimer = s.refresh.sampleTimer ∧ (changeClass c s).refresh.breaches = s.refresh.breaches := by
  unfold changeClass
  (try dsimp only)
  (repeat' split) <;> simp_all

@[simp] theorem intakeResult_breaks (r : IntakeFault) (p : ReadStep) (s : State) :
    (intakeResult (breakIntake r p) s).engine = s.engine ∧ (intakeResult (breakIntake r p) s).pool = s.pool
      ∧ (intakeResult (breakIntake r p) s).table = s.table ∧ (intakeResult (breakIntake r p) s).strokes = s.strokes
      ∧ (intakeResult (breakIntake r p) s).banks = s.banks ∧ (intakeResult (breakIntake r p) s).refresh = s.refresh
      ∧ (intakeResult (breakIntake r p) s).regions = s.regions ∧ (intakeResult (breakIntake r p) s).domains = s.domains
      ∧ (intakeResult (breakIntake r p) s).arrayMode = s.arrayMode ∧ (intakeResult (breakIntake r p) s).array = s.array
      ∧ (intakeResult (breakIntake r p) s).pending = s.pending
      ∧ (intakeResult (breakIntake r p) s).intake.expected = s.intake.expected
      ∧ (intakeResult (breakIntake r p) s).port.exbase = s.port.exbase
      ∧ (intakeResult (breakIntake r p) s).port.resetHeld = s.port.resetHeld
      ∧ (intakeResult (breakIntake r p) s).port.idleSleep = s.port.idleSleep := by
  unfold intakeResult
  split <;> simp

@[simp] theorem intakeReadFails_frame (p : ReadStep) (s : State) :
    (intakeReadFails p s).table = s.table ∧ (intakeReadFails p s).strokes = s.strokes ∧ (intakeReadFails p s).banks = s.banks
      ∧ (intakeReadFails p s).refresh = s.refresh ∧ (intakeReadFails p s).regions = s.regions
      ∧ (intakeReadFails p s).domains = s.domains ∧ (intakeReadFails p s).arrayMode = s.arrayMode
      ∧ (intakeReadFails p s).array = s.array ∧ (intakeReadFails p s).pending = s.pending
      ∧ (intakeReadFails p s).intake.expected = s.intake.expected ∧ (intakeReadFails p s).pool.taken = s.pool.taken
      ∧ (intakeReadFails p s).port.exbase = s.port.exbase ∧ (intakeReadFails p s).port.resetHeld = s.port.resetHeld
      ∧ (intakeReadFails p s).port.idleSleep = s.port.idleSleep := by
  simp [intakeReadFails]

@[simp] theorem accessFails_frame (r : Request) (s : State) :
    (accessFails r s).arrayMode = s.arrayMode ∧ (accessFails r s).array = s.array ∧ (accessFails r s).pending = s.pending
      ∧ (accessFails r s).intake.expected = s.intake.expected ∧ (accessFails r s).pool.taken = s.pool.taken
      ∧ (accessFails r s).port.exbase = s.port.exbase ∧ (accessFails r s).port.resetHeld = s.port.resetHeld
      ∧ (accessFails r s).port.idleSleep = s.port.idleSleep ∧ (accessFails r s).domains.states = s.domains.states
      ∧ (accessFails r s).refresh.tempClass = s.refresh.tempClass ∧ (accessFails r s).refresh.breaches = s.refresh.breaches := by
  unfold accessFails
  (repeat' split) <;> simp

/-- What the end of an event leaves as the event's own effect made it (R78, R174, R186). -/
@[simp] theorem tableEvent_frame (f : State → State) (s : State) :
    (tableEvent f s).port = (f s).port ∧ (tableEvent f s).engine = (f s).engine ∧ (tableEvent f s).pending = (f s).pending
      ∧ (tableEvent f s).intake.expected = (f s).intake.expected ∧ (tableEvent f s).intake.records = (f s).intake.records
      ∧ (tableEvent f s).reporting.released = (f s).reporting.released ∧ (tableEvent f s).pool.taken = (f s).pool.taken
      ∧ (tableEvent f s).pool.finished = (f s).pool.finished ∧ (tableEvent f s).pool.cancelList = (f s).pool.cancelList
      ∧ (tableEvent f s).refresh.tempClass = (f s).refresh.tempClass ∧ (tableEvent f s).refresh.breaches = (f s).refresh.breaches
      ∧ (tableEvent f s).arrayMode.forcedSleep = (f s).arrayMode.forcedSleep := by
  simp [tableEvent]


end Sys2Proof.Machine
end

