-- ==== Sys2Proof/Laws/Memory.lean ====
section
/-! SUPPORT. The array's cells: reads after writes, and the canonical form that every operation keeps. -/

namespace Sys2Proof.Machine

/-! ## Reads after writes -/

theorem cellGet_of_lt {α : Type} (d : α) (m : List (Nat × α)) (x : Nat) (h : ∀ c ∈ m, x < c.1) : cellGet d m x = d := by
  induction m with
  | nil => rfl
  | cons c m ih =>
    have hc := h c (by simp)
    simp only [cellGet]
    rw [if_neg (by omega)]
    exact ih fun e he => h e (by simp [he])

/-- Reading a cell list after one write. -/
theorem cellGet_cellSet {α : Type} [DecidableEq α] (d : α) (m : List (Nat × α)) (x : Nat) (v : α) (y : Nat)
    (hm : m.Pairwise fun a b => a.1 < b.1) : cellGet d (cellSet d m x v) y = if x = y then v else cellGet d m y := by
  induction m with
  | nil =>
    simp only [cellSet, cellGet]
    split <;> simp_all [cellGet]
  | cons c m ih =>
    obtain ⟨a, w⟩ := c
    have hlt : ∀ e ∈ m, a < e.1 := (List.pairwise_cons.mp hm).1
    simp only [cellSet]
    by_cases h1 : x < a
    · rw [if_pos h1]
      by_cases h2 : v = d
      · rw [if_pos h2]
        by_cases h3 : x = y
        · subst h3
          simp only [cellGet, if_neg (show ¬a = x by omega), if_true, h2]
          exact cellGet_of_lt d m x fun e he => Nat.lt_trans h1 (hlt e he)
        · simp [h3]
      · rw [if_neg h2]
        simp [cellGet]
    · rw [if_neg h1]
      by_cases h2 : x = a
      · subst h2
        rw [if_pos rfl]
        by_cases h3 : v = d
        · rw [if_pos h3]
          by_cases h4 : x = y
          · subst h4
            simp only [if_true, h3]
            exact cellGet_of_lt d m x hlt
          · simp [cellGet, h4]
        · rw [if_neg h3]
          simp only [cellGet]
          split <;> rfl
      · rw [if_neg h2]
        simp only [cellGet, ih (List.pairwise_cons.mp hm).2]
        by_cases h3 : a = y
        · subst h3
          simp [h2]
        · simp [h3]

/-! ## The canonical form -/

theorem mem_cellSet {α : Type} [DecidableEq α] (d : α) (m : List (Nat × α)) (x : Nat) (v : α) (c : Nat × α)
    (h : c ∈ cellSet d m x v) : (c ∈ m ∨ c = (x, v)) ∧ (v ≠ d ∨ c ∈ m) := by
  induction m with
  | nil =>
    simp only [cellSet] at h
    split at h <;> simp_all
  | cons e m ih =>
    obtain ⟨a, w⟩ := e
    simp only [cellSet] at h
    split at h
    · split at h
      · simp_all
      · simp only [List.mem_cons] at h ⊢
        rcases h with h | h | h <;> simp_all
    · split at h
      · split at h <;> simp_all
        rcases h with h | h <;> simp_all
      · rcases List.mem_cons.mp h with h | h
        · simp_all
        · have := ih h
          rcases this with ⟨h1, h2⟩
          refine ⟨?_, ?_⟩
          · rcases h1 with h1 | h1 <;> simp_all
          · rcases h2 with h2 | h2 <;> simp_all

theorem cellSet_rising {α : Type} [DecidableEq α] (d : α) (m : List (Nat × α)) (x : Nat) (v : α)
    (hm : m.Pairwise fun a b => a.1 < b.1) : (cellSet d m x v).Pairwise fun a b => a.1 < b.1 := by
  induction m with
  | nil =>
    simp only [cellSet]
    split <;> simp
  | cons e m ih =>
    obtain ⟨a, w⟩ := e
    have hp := List.pairwise_cons.mp hm
    simp only [cellSet]
    split
    · split
      · exact hm
      · refine List.pairwise_cons.mpr ⟨fun c hc => ?_, hm⟩
        rcases List.mem_cons.mp hc with rfl | hc
        · assumption
        · exact Nat.lt_trans (by assumption) (hp.1 c hc)
    · split
      · split
        · exact hp.2
        · exact List.pairwise_cons.mpr ⟨hp.1, hp.2⟩
      · refine List.pairwise_cons.mpr ⟨fun c hc => ?_, ih hp.2⟩
        rcases (mem_cellSet d m x v c hc).1 with h | h
        · exact hp.1 c h
        · subst h
          show a < x
          omega

/-- A write below the bound keeps the canonical form. -/
theorem cellSet_canonical {α : Type} [DecidableEq α] (d : α) (bound : Nat) (m : List (Nat × α)) (x : Nat) (v : α) (hx : x < bound)
    (hm : CellsCanonical d bound m) : CellsCanonical d bound (cellSet d m x v) := by
  refine ⟨cellSet_rising d m x v hm.1, fun c hc => ?_⟩
  have h := mem_cellSet d m x v c hc
  rcases h.1 with h1 | h1
  · exact hm.2 c h1
  · rcases h.2 with h2 | h2
    · subst h1; exact ⟨h2, hx⟩
    · exact hm.2 c h2

/-- A run of writes below the bound keeps the canonical form. -/
theorem foldl_cellSet_canonical {α : Type} [DecidableEq α] {n : Nat} (d : α) (bound base : Nat) (f : Fin n → α) (js : List (Fin n))
    (m : List (Nat × α)) (h : ∀ j : Fin n, base + j.val < bound) (hm : CellsCanonical d bound m) :
    CellsCanonical d bound (js.foldl (fun ds j => cellSet d ds (base + j.val) (f j)) m) := by
  induction js generalizing m with
  | nil => exact hm
  | cons j js ih => exact ih _ (cellSet_canonical d bound m _ _ (h j) hm)

/-- Reading after a run of writes at `base`, one for each listed offset. -/
theorem cellGet_foldl_cellSet {α : Type} [DecidableEq α] {n : Nat} (d : α) (base : Nat) (f : Fin n → α) (js : List (Fin n))
    (m : List (Nat × α)) (y : Nat) (hm : m.Pairwise fun a b => a.1 < b.1) :
    cellGet d (js.foldl (fun ds j => cellSet d ds (base + j.val) (f j)) m) y =
      match js.find? fun j => base + j.val == y with
      | some j => f j
      | none => cellGet d m y := by
  induction js generalizing m with
  | nil => rfl
  | cons j js ih =>
    simp only [List.foldl_cons]
    rw [ih _ (cellSet_rising d m _ _ hm), cellGet_cellSet d m _ _ y hm]
    simp only [List.find?_cons]
    by_cases hy : base + j.val = y
    · have : js.find? (fun j => base + j.val == y) = none ∨ js.find? (fun j => base + j.val == y) = some j := by
        cases hf : js.find? fun j => base + j.val == y with
        | none => exact Or.inl rfl
        | some k =>
          have hk := List.find?_some hf
          simp at hk
          exact Or.inr (congrArg some (Fin.ext (by omega)))
      rcases this with h | h <;> simp [h, hy]
    · have hb : (base + j.val == y) = false := by simpa using hy
      simp [hb, hy]

/-! ## The array -/

theorem placeAddress_lt (b : BankId) (row : BitVec 14) (column : BitVec 5) : placeAddress b row column + 63 < Config.arrayBytes := by
  have h1 := row.isLt
  have h2 := column.isLt
  have h3 := b.isLt
  simp only [placeAddress, Config.arrayBytes]
  omega

theorem placeAddress_aligned (b : BankId) (row : BitVec 14) (column : BitVec 5) : placeAddress b row column % 64 = 0 := by
  simp only [placeAddress]
  omega

theorem word_below (a : Nat) (ha : a + 63 < Config.arrayBytes) (j : Fin 8) : a / 8 + j.val < Config.arrayBytes / 8 := by
  have := j.isLt
  simp only [Config.arrayBytes] at ha ⊢
  omega

theorem byte_below (a : Nat) (ha : a + 63 < Config.arrayBytes) (j : Fin 64) : a + j.val < Config.arrayBytes := by
  have := j.isLt
  omega

theorem setDisturbed_wf (m : ArrayCells) (a : Nat) (f : Fin 8 → Disturbance) (ha : a + 63 < Config.arrayBytes) (h : Memory.wf m) :
    Memory.wf (setDisturbed m a f) := by
  unfold setDisturbed
  exact ⟨h.1, foldl_cellSet_canonical _ _ (a / 8) f _ _ (word_below a ha) h.2⟩

theorem storeBytes_wf (m : ArrayCells) (a : Nat) (l : Line) (ha : a + 63 < Config.arrayBytes) (h : Memory.wf m) :
    CellsCanonical unlistedByte Config.arrayBytes
      ((List.finRange 64).foldl (fun bs j => cellSet unlistedByte bs (a + j.val) l[j]) m.bytes) :=
  foldl_cellSet_canonical unlistedByte Config.arrayBytes a (fun j : Fin 64 => l[j]) (List.finRange 64) m.bytes (byte_below a ha) h.1

theorem writeLine_wf (m : ArrayCells) (a : Nat) (l : Line) (ha : a + 63 < Config.arrayBytes) (h : Memory.wf m) :
    Memory.wf (writeLine m a l) := by
  have hs := storeBytes_wf m a l ha h
  have hw := h.2
  unfold writeLine
  generalize (List.finRange 64).foldl (fun bs j => cellSet unlistedByte bs (a + j.val) l[j]) m.bytes = bytes at hs ⊢
  exact setDisturbed_wf _ a _ ha (And.intro hs hw)

theorem accessCells_cases (b : BankId) (q : BankRequest) (fresh : LineDisturbance) (m : ArrayCells) :
    (∃ l, accessCells b q fresh m = writeLine m (requestAddress b q) l) ∨
      ∃ f, accessCells b q fresh m = setDisturbed m (requestAddress b q) f := by
  unfold accessCells
  cases q.kind with
  | read => exact Or.inr ⟨_, rfl⟩
  | write l => exact Or.inl ⟨l, rfl⟩
  | scrub => cases requestClass b q fresh m <;> exact Or.inr ⟨_, rfl⟩

/-- Every access keeps the canonical form. -/
theorem accessCells_wf (b : BankId) (q : BankRequest) (fresh : LineDisturbance) (m : ArrayCells) (h : Memory.wf m) :
    Memory.wf (accessCells b q fresh m) := by
  have ha : requestAddress b q + 63 < Config.arrayBytes := placeAddress_lt b q.row q.column
  rcases accessCells_cases b q fresh m with ⟨l, hl⟩ | ⟨f, hf⟩
  · rw [hl]; exact writeLine_wf m _ l ha h
  · rw [hf]; exact setDisturbed_wf m _ f ha h

theorem filter_canonical {α : Type} (d : α) (bound : Nat) (m : List (Nat × α)) (p : Nat × α → Bool) (h : CellsCanonical d bound m) :
    CellsCanonical d bound (m.filter p) :=
  ⟨h.1.filter p, fun c hc => h.2 c (List.mem_filter.mp hc).1⟩

/-- Discarding a domain's cells keeps the canonical form. -/
theorem discardCells_wf (d : DomainId) (m : ArrayCells) (h : Memory.wf m) : Memory.wf (discardCells d m) :=
  ⟨filter_canonical _ _ _ _ h.1, filter_canonical _ _ _ _ h.2⟩

theorem reset_wf : Memory.wf ArrayCells.reset := ⟨⟨List.Pairwise.nil, nofun⟩, ⟨List.Pairwise.nil, nofun⟩⟩

@[simp] theorem setDisturbed_bytes (m : ArrayCells) (a : Nat) (f : Fin 8 → Disturbance) : (setDisturbed m a f).bytes = m.bytes := rfl

theorem arrayByte_setDisturbed (m : ArrayCells) (a : Nat) (f : Fin 8 → Disturbance) (x : Nat) :
    arrayByte (setDisturbed m a f) x = arrayByte m x := rfl

theorem find_offset {n : Nat} (base y : Nat) :
    ((List.finRange n).find? fun j => base + j.val == y) = if h : base ≤ y ∧ y < base + n then some ⟨y - base, by omega⟩ else none := by
  split
  · rename_i h
    have hex : ∃ k, (List.finRange n).find? (fun j => base + j.val == y) = some k := by
      rw [← Option.isSome_iff_exists, List.find?_isSome]
      exact ⟨⟨y - base, by omega⟩, List.mem_finRange _, by simp; omega⟩
    obtain ⟨k, hk⟩ := hex
    have := List.find?_some hk
    simp at this
    rw [hk]
    exact congrArg some (Fin.ext (by simp; omega))
  · rename_i h
    rw [List.find?_eq_none]
    intro j _
    have := j.isLt
    simp
    omega

/-- A byte after 64 bytes have been written at `a`. -/
theorem arrayByte_writeLine (m : ArrayCells) (a : Nat) (l : Line) (x : Nat) (h : Memory.wf m) :
    arrayByte (writeLine m a l) x = if hx : a ≤ x ∧ x < a + 64 then l[x - a]'(by omega) else arrayByte m x := by
  unfold writeLine
  rw [arrayByte_setDisturbed]
  unfold arrayByte
  dsimp only
  rw [cellGet_foldl_cellSet unlistedByte a (fun j : Fin 64 => l[j]) _ _ _ h.1.1, find_offset]
  split <;> rename_i hx
  · split at hx
    · rename_i hx2
      cases hx
      rw [dif_pos hx2]
      rfl
    · cases hx
  · split at hx
    · cases hx
    · rename_i hx2
      rw [dif_neg hx2]

/-- How a word differs from what was written, after the eight words at `a` have been marked. -/
theorem wordDisturbance_setDisturbed (m : ArrayCells) (a : Nat) (f : Fin 8 → Disturbance) (n : Nat) (h : Memory.wf m) :
    wordDisturbance (setDisturbed m a f) n =
      if hn : a / 8 ≤ n ∧ n < a / 8 + 8 then f ⟨n - a / 8, by omega⟩ else wordDisturbance m n := by
  unfold wordDisturbance setDisturbed
  dsimp only
  rw [cellGet_foldl_cellSet Disturbance.clean (a / 8) f _ _ _ h.2.1, find_offset]
  split <;> rename_i hx
  · split at hx
    · rename_i hx2
      cases hx
      rw [dif_pos hx2]
    · cases hx
  · split at hx
    · cases hx
    · rename_i hx2
      rw [dif_neg hx2]

end Sys2Proof.Machine
end

