-- ==== Sys2Proof/Laws/Orders.lean ====
section
/-! SUPPORT. What the pool, the table and the master channel hold after the operations that write them, and what a response does. -/

namespace Sys2Proof.Machine

open Sys2Proof.Safety

/-! ## Places of a vector -/

theorem getElem_set_other {α : Type} {n : Nat} (v : Vector α n) (i j : Fin n) (x : α) (h : j ≠ i) : (v.set i x)[j] = v[j] := by
  have hv : i.val ≠ j.val := fun e => h (Fin.ext e.symm)
  exact Vector.getElem_set_ne i.isLt j.isLt hv

theorem getElem_set_same {α : Type} {n : Nat} (v : Vector α n) (i : Fin n) (x : α) : (v.set i x)[i] = x := by simp

theorem getElem_of_eq {α : Type} {n : Nat} (v : Vector α n) {i j : Fin n} (h : i = j) : v[i] = v[j] := by
  subst h
  rfl

/-! ## Slots and entries -/

theorem slotOrder_setSlot (i j : SlotId) (o : Option PoolOrder) (s : State) :
    slotOrder (setSlot i o s) j = if j = i then o else slotOrder s j := by
  unfold slotOrder setSlot
  by_cases h : j = i
  · subst h
    simp
  · rw [if_neg h]
    exact getElem_set_other _ _ _ _ h

theorem laneEntry_setEntry (l m : Lane) (e : Option TableEntry) (s : State) :
    laneEntry (setEntry l e s) m = if m = l then e else laneEntry s m := by
  unfold laneEntry setEntry
  by_cases h : m = l
  · subst h
    simp
  · rw [if_neg h]
    exact getElem_set_other _ _ _ _ h

theorem laneOrder_congr {s t : State} (h1 : t.pool.slots = s.pool.slots) (h2 : t.table = s.table) (l : Lane) : laneOrder t l = laneOrder s l := by
  simp [laneOrder, laneEntry, slotOrder, h1, h2]

/-- An update of a lane changes its order's slot and its entry, and no other. -/
theorem updateLane_held {l : Lane} {f : PoolOrder → PoolOrder} {g : TableEntry → TableEntry} {s : State} {e : TableEntry} {o : PoolOrder}
    (he : laneEntry s l = some e) (ho : slotOrder s e.slot = some o) :
    (∀ i, slotOrder (updateLane l f g s) i = if i = e.slot then some (f o) else slotOrder s i)
      ∧ ∀ m, laneEntry (updateLane l f g s) m = if m = l then some (g e) else laneEntry s m := by
  unfold updateLane
  simp only [he, ho]
  exact ⟨fun i => slotOrder_setSlot e.slot i (some (f o)) s,
    fun m => laneEntry_setEntry l m (some (g e)) (setSlot e.slot (some (f o)) s)⟩

theorem updateLane_empty {l : Lane} {f : PoolOrder → PoolOrder} {g : TableEntry → TableEntry} {s : State} (h : laneOrder s l = none) :
    updateLane l f g s = s := by
  unfold updateLane
  unfold laneOrder at h
  split
  · rfl
  · rename_i e he
    rw [he] at h
    simp only [Option.bind_some] at h
    rw [h]

/-! ## Responses -/

/-- The response that the outstanding access awaits frees the channel and acts, with all that follows. -/
theorem onResponse_awaited {s : State} {tag : Nat} {r : Request} {sort : Request → Bool} (f : Access → State → State)
    (h : Awaits s tag r) (hr : sort r = true) :
    ∃ a, s.channel.outstanding = some a ∧ a.request = r ∧ onResponse tag sort f s = settle (freed s) (f a (freed s)) := by
  obtain ⟨a, ha, ht, hq⟩ := h
  refine ⟨a, ha, hq, ?_⟩
  have hs : acceptResponse tag sort s = some (a, freed s) := by
    unfold acceptResponse
    simp [ha, ht, hq, hr, freed]
  unfold onResponse
  rw [hs]
  rfl

/-- A response that no access awaits has no effect. -/
theorem onResponse_stale {s : State} {tag : Nat} (sort : Request → Bool) (f : Access → State → State)
    (h : ∀ a, s.channel.outstanding = some a → a.tag ≠ tag) : onResponse tag sort f s = s := by
  unfold onResponse acceptResponse
  cases hs : s.channel.outstanding with
  | none => rfl
  | some a => simp [h a hs]

/-! ## The request queue -/

theorem countP_erase_mem (p : Request → Bool) (q : List Request) (r : Request) (h : r ∈ q) :
    q.countP p = (q.erase r).countP p + if p r then 1 else 0 := by
  rw [(List.perm_cons_erase h).countP_eq p, List.countP_cons]

theorem foldl_betterData_mem (q l : List Request) (b : Option Request) (hb : ∀ x, b = some x → x ∈ q) (hl : ∀ x ∈ l, x ∈ q) (x : Request)
    (h : l.foldl betterData b = some x) : x ∈ q := by
  induction l generalizing b with
  | nil => exact hb x h
  | cons a l ih =>
    refine ih (betterData b a) (fun y hy => ?_) (fun y hy => hl y (List.mem_cons_of_mem a hy)) h
    unfold betterData at hy
    split at hy
    · split at hy
      · cases hy
        exact hl _ List.mem_cons_self
      · exact hb y hy
    · cases hy
      exact hl _ List.mem_cons_self
    · exact hb y hy

/-- The arbiter picks a request of the queue. -/
theorem pickRequest_mem (q : List Request) (r : Request) (h : pickRequest q = some r) : r ∈ q := by
  unfold pickRequest at h
  split at h
  · rename_i hx
    cases h
    exact List.mem_of_find?_eq_some hx
  · split at h
    · rename_i hx
      cases h
      exact List.mem_of_find?_eq_some hx
    · exact foldl_betterData_mem q q none nofun (fun x hx => hx) r h

/-- What an issue does: nothing, or one allowed request of the queue becomes the outstanding access. -/
theorem issueAccess_cases (s : State) :
    issueAccess s = s ∨ ∃ r ∈ s.channel.queue, s.channel.outstanding = none ∧ s.port.resetHeld = false ∧ mayIssue s.engine.state r = true
      ∧ pickRequest (s.channel.queue.filter (mayIssue s.engine.state)) = some r ∧ issueAccess s = issueRequest r s := by
  unfold issueAccess
  split
  · exact Or.inl rfl
  · rename_i ho
    split
    · exact Or.inl rfl
    · rename_i r hr
      have hm := List.mem_filter.1 (pickRequest_mem _ _ hr)
      have hn : s.channel.outstanding = none ∧ s.port.resetHeld = false := by simpa using ho
      exact Or.inr ⟨r, hm.1, hn.1, hn.2, hm.2, hr, rfl⟩

/-! ## Reporting writes held by the channel -/

theorem reportWrites_congr {s t : State} (h : t.channel = s.channel) (i : SlotId) : reportWrites t i = reportWrites s i := by
  simp [reportWrites, h]

theorem reportWrites_placeRequest (r : Request) (s : State) (i : SlotId) :
    reportWrites (placeRequest r s) i = reportWrites s i + if r = .result i ∨ r = .estate i then 1 else 0 := by
  unfold reportWrites placeRequest
  simp only [List.countP_append, List.countP_cons, List.countP_nil]
  by_cases h : r = .result i ∨ r = .estate i
  · have hb : (r == .result i || r == .estate i) = true := by simpa using h
    rw [if_pos h, hb]
    simp
    omega
  · have hb : (r == .result i || r == .estate i) = false := by simpa using h
    rw [if_neg h, hb]
    simp

@[simp] theorem reportWrites_requestHeaderUpdate (s : State) (i : SlotId) : reportWrites (requestHeaderUpdate s) i = reportWrites s i := by
  unfold requestHeaderUpdate
  split
  · exact (reportWrites_placeRequest .headerUpdate s i).trans (by simp)
  · rfl

@[simp] theorem reportWrites_issueAccess (s : State) (i : SlotId) : reportWrites (issueAccess s) i = reportWrites s i := by
  rcases issueAccess_cases s with h | ⟨r, hm, ho, _, _, _, h⟩
  · rw [h]
  · rw [h]
    unfold issueRequest
    rw [reportWrites_congr (issueEffect_frame r _).2.2.1]
    unfold reportWrites
    rw [countP_erase_mem _ _ r hm]
    simp [ho]

/-- The outstanding access leaves the channel: its reporting write is no longer counted. -/
theorem reportWrites_freed {s : State} {a : Access} (h : s.channel.outstanding = some a) (i : SlotId) :
    reportWrites s i = reportWrites (freed s) i + if a.request = .result i ∨ a.request = .estate i then 1 else 0 := by
  unfold reportWrites freed
  by_cases hr : a.request = .result i ∨ a.request = .estate i
  · have hb : (a.request == .result i || a.request == .estate i) = true := by simpa using hr
    simp [h, hb, hr]
  · have hb : (a.request == .result i || a.request == .estate i) = false := by simpa using hr
    simp [h, hb, hr]

/-! ## Conflicts go both ways (R76) -/

theorem intervalConflict_comm (x y : ArrayInterval) : intervalConflict x y = intervalConflict y x := by
  unfold intervalConflict overlap
  rw [Bool.or_comm y.write]
  congr 1
  rw [Bool.eq_iff_iff]
  simp only [Bool.and_eq_true, decide_eq_true_eq]
  omega

theorem conflicts_comm (f g : Footprint) : f.conflicts g = g.conflicts f := by
  unfold Footprint.conflicts
  rw [Bool.or_comm g.whole]
  split
  · rw [Bool.eq_iff_iff]
    simp only [List.any_eq_true, List.contains_iff_mem]
    exact ⟨fun ⟨r, h, k⟩ => ⟨r, k, h⟩, fun ⟨r, h, k⟩ => ⟨r, k, h⟩⟩
  · rw [Bool.eq_iff_iff]
    simp only [List.any_eq_true]
    exact ⟨fun ⟨x, hx, y, hy, h⟩ => ⟨y, hy, x, hx, intervalConflict_comm x y ▸ h⟩,
      fun ⟨x, hx, y, hy, h⟩ => ⟨y, hy, x, hx, intervalConflict_comm x y ▸ h⟩⟩

end Sys2Proof.Machine
end

