-- ==== Sys2Proof/Laws/Refresh.lean ====
section
/-! SUPPORT. What the arbiter's decision and the hand-over of k do to the banks' power, the accounts and the regions. -/

namespace Sys2Proof.Machine

/-! ## Awake banks -/

/-- An arbiter's decision never takes a bank into or out of UNPOWERED or ASLEEP. -/
theorem bankAwake_decide1 (i : RefreshLevel × Bool) (g : Option RowGroup) (k : Bank) : bankAwake (decide1 i g k) = bankAwake k := by
  unfold decide1
  split
  · rfl
  · split
    · rename_i h
      unfold decideIdle bankAwake
      (repeat' split) <;> simp_all [startRefresh, startOpen] <;> rfl
    · rename_i h
      unfold decideOpen bankAwake
      simp only []
      (repeat' split) <;> simp_all [startClose, startAccess] <;> rfl
    all_goals rfl

/-- Writing a bank with the same power keeps every bank's power. -/
theorem bankAwake_setBank (b c : BankId) (k : Bank) (s : State) (h : bankAwake k = bankAwake s.banks[b]) :
    bankAwake (setBank b k s).banks[c] = bankAwake s.banks[c] := by
  unfold setBank
  by_cases hc : c = b
  · subst hc
    simpa using h
  · exact congrArg bankAwake (getElem_set_other _ _ _ _ hc)

@[simp] theorem bankAwake_bankDecide (b c : BankId) (s : State) : bankAwake (bankDecide b s).banks[c] = bankAwake s.banks[c] :=
  bankAwake_setBank b c _ s (bankAwake_decide1 _ _ _)

@[simp] theorem bankAwake_indicationChanged (i : RefreshLevel × Bool) (b c : BankId) (s : State) :
    bankAwake (indicationChanged i b s).banks[c] = bankAwake s.banks[c] := by
  unfold indicationChanged
  split
  · rfl
  · exact bankAwake_bankDecide b c s

@[simp] theorem bankAwake_joinBank (b c : BankId) (q : BankRequest) (s : State) : bankAwake (joinBank b q s).banks[c] = bankAwake s.banks[c] := by
  unfold joinBank
  rw [bankAwake_bankDecide]
  exact bankAwake_setBank b c _ s rfl

theorem allAsleep_iff (s : State) : allAsleep s = true ↔ ∀ b : BankId, bankAwake s.banks[b] = false := by
  have hm : ∀ b : BankId, b ∈ allBanks := by decide
  unfold allAsleep
  rw [List.all_eq_true]
  constructor
  · intro h b
    simpa using h b (hm b)
  · intro h b _
    simp [show bankAwake s.banks[b.val] = false from h b]

/-! ## Regions -/

theorem mapRegions_get (f : RegionId → Region → Region) (s : State) (r : RegionId) : (mapRegions f s).regions[r] = f r s.regions[r] := by
  simp [mapRegions]

theorem domainBecomes_get (d : DomainId) (st : RegionState) (s : State) (r : RegionId) :
    (domainBecomes d st s).regions[r] = if regionDomain r = d then Region.become st else s.regions[r] := by
  unfold domainBecomes
  rw [mapRegions_get]
  simp

theorem retainedCount_congr {s t : State} (h : t.regions = s.regions) (b : BankId) : retainedCount t b = retainedCount s b := by
  simp [retainedCount, regionState, h]

theorem regionDomain_regionOf (b : BankId) (g : Fin 8) : regionDomain (regionOf b g) = bankDomain b := by
  apply Fin.ext
  simp only [regionDomain, bankDomain, regionBank, regionOf]
  omega

/-! ## The row group in turn -/

theorem groupSegment_firstGroup (g : Fin 8) : groupSegment (firstGroup g) = g := by
  apply Fin.ext
  simp only [groupSegment, firstGroup]
  omega

/-- The row group taken lies in a retained segment. -/
theorem nextGroup_retained {retained : Fin 8 → Bool} {last : Option RowGroup} {g : RowGroup} (h : nextGroup retained last = some g) :
    retained (groupSegment g) = true := by
  unfold nextGroup at h
  dsimp only at h
  split at h
  · cases h
    assumption
  · obtain ⟨j, hj, rfl⟩ := Option.map_eq_some_iff.mp h
    rw [groupSegment_firstGroup]
    exact List.find?_some (p := fun j => retained (groupSegment (turnStart last) + j)) hj

/-! ## The hand-over of k -/

/-- A fresh interval moves the timer and its number alone. -/
@[simp] theorem startInterval_frame (c : TempClass) (r : RefreshBank) :
    (startInterval c r).account = r.account ∧ (startInterval c r).k = r.k ∧ (startInterval c r).void = r.void
      ∧ (startInterval c r).timer = some (tickInterval c r.k) ∧ (startInterval c r).interval = r.interval + 1 := ⟨rfl, rfl, rfl, rfl, rfl⟩

/-- A tick of another interval than the one that runs, or of a stopped timer, is not taken. -/
theorem execTick_stale {d : TickDue} {s : State} (h : tickRuns d s = false) : execTick d s = .next s := by
  simp [execTick, h]

/-- The new k is in place; the account stays in its range and, with the timer, at rest where it was. -/
theorem refreshWithK_spec (c : TempClass) (k : Bank) (n : Nat) (r : RefreshBank)
    (h : -8 ≤ r.account ∧ r.account ≤ 8 ∧ (r.k = 0 ∨ bankAwake k = false → r.account = 0 ∧ r.timer = none)) :
    (refreshWithK c k n r).k = n ∧ -8 ≤ (refreshWithK c k n r).account ∧ (refreshWithK c k n r).account ≤ 8
      ∧ (n = 0 ∨ bankAwake k = false → (refreshWithK c k n r).account = 0 ∧ (refreshWithK c k n r).timer = none) := by
  unfold refreshWithK
  split
  · rename_i hn
    exact ⟨hn.symm, h.1, h.2.1, fun h0 => h.2.2 (h0.imp_left fun h1 => hn.symm.trans h1)⟩
  · split
    · rename_i h0
      exact ⟨h0.symm, by show (-8 : Int) ≤ 0; decide, by show (0 : Int) ≤ 8; decide, fun _ => ⟨rfl, rfl⟩⟩
    · rename_i h0
      split
      · rename_i ha
        exact ⟨rfl, h.1, h.2.1, fun h1 => absurd (h1.resolve_left h0) (by simp [ha])⟩
      · rename_i ha
        exact ⟨rfl, h.1, h.2.1, fun _ => ⟨(h.2.2 (Or.inr (by simpa using ha))).1, rfl⟩⟩

theorem handK_refresh (b : BankId) (s : State) :
    (handK b s).refresh = { s.refresh with
      banks := s.refresh.banks.set b (refreshWithK s.refresh.tempClass s.banks[b] (retainedCount s b) s.refresh.banks[b]) } := by
  unfold handK
  simp [setRefresh]

@[simp] theorem bankAwake_handK (b c : BankId) (s : State) : bankAwake (handK b s).banks[c] = bankAwake s.banks[c] := by
  unfold handK
  rw [bankAwake_indicationChanged]
  rfl

theorem handK_bank_same (b : BankId) (s : State) :
    (handK b s).refresh.banks[b] = refreshWithK s.refresh.tempClass s.banks[b] (retainedCount s b) s.refresh.banks[b] := by
  rw [handK_refresh]
  exact getElem_set_same _ _ _

theorem handK_bank_other (b c : BankId) (s : State) (h : c ≠ b) : (handK b s).refresh.banks[c] = s.refresh.banks[c] := by
  rw [handK_refresh]
  exact getElem_set_other _ _ _ _ h

end Sys2Proof.Machine
end

