-- ==== Sys2Proof/Tests/Slice0.lean ====
section
/-! SUPPORT. Tests: the well-formedness check refuses ill-formed commands, small steps have the effect the rules give, and for every statement with hypotheses a concrete state and operands that meet them. -/

namespace Sys2Proof.Tests

open Sys2Proof Sys2Proof.Machine Sys2Proof.Safety

/-! ## Well-formedness and words -/

theorem test_engineReset_needs_its_bit : (Instr.engineReset 0).wellFormed = false := by decide
theorem test_engineEnable_needs_enable : (Instr.engineEnable 0).wellFormed = false := by decide
theorem test_engineEnable_is_no_reset : (Instr.engineEnable 3).wellFormed = false := by decide
theorem test_engineDisable_needs_enable_clear : (Instr.engineDisable 1).wellFormed = false := by decide
theorem test_engineDisable_is_no_reset : (Instr.engineDisable 2).wellFormed = false := by decide
theorem test_pollSet_is_no_reset : (Instr.pollSet 2).wellFormed = false := by decide
theorem test_idleSleepSet_is_no_reset : (Instr.idleSleepSet 2).wellFormed = false := by decide
theorem test_responseSet_is_no_reset : (Instr.responseSet 2).wellFormed = false := by decide
theorem test_registerWriteOther_is_not_control : (Instr.registerWriteOther 0 .word 0).wellFormed = false := by decide
theorem test_registerWriteOther_ignored_writes :
    (Instr.registerWriteOther 0 .byte 0).wellFormed = true ∧ (Instr.registerWriteOther 1 .word 0).wellFormed = true
      ∧ (Instr.registerWriteOther 0x10 .word 0).wellFormed = true := by decide
theorem test_no_word_spells_a_command : decodeTableWord 0 0 = none ∧ decodeTableWord 32 1 = none := by decide

/-! ## Small states -/

/-- What a command leaves. -/
def after (c : Instr) (s : State) : State :=
  match exec c s with
  | .next t => t
  | .fault _ | .refused _ => s

/-- Words 0 to 5 of an entry. -/
def entry (w0 w1 w2 w3 w4 w5 : Word) : EntryWords := { word0 := w0, word1 := w1, word2 := w2, word3 := w3, word4 := w4, word5 := w5 }

/-- A posted FILL of 64 bytes at array address 0 in lane 0, sequence `q`. -/
def fillEntry (q : Word) : EntryWords := entry 0x01000004 q 0 0 64 0xDDCCBBAA
def loadEntry : EntryWords := entry 0x01000001 0 0x1000 0 128 0
def markEntry : EntryWords := entry 0x01000008 0 0 0 0 0
/-- RETAIN KEEP of region 0; with word 5 0x0101, DROP. -/
def keepEntry : EntryWords := entry 0x01000006 0 0 0 0 0x10101
def dropEntry : EntryWords := entry 0x01000006 0 0 0 0 0x0101
/-- POWER ON of domain 0. -/
def powerEntry : EntryWords := entry 0x01000007 0 0 0 0 0x100

def order (e : EntryWords) (st : Lifecycle) : PoolOrder :=
  { entry := e, pageSerial := 0, pageAddress := 512, entrySlot := 0, life := st, cancelMark := false, stopCause := none,
    outcome := none, reason := 0, corrected := 0, done := 0 }

/-- The engine RUNNING after reset. -/
def live : State :=
  { State.reset with engine := { state := .running, haltReason := .noReason }, port := { PortRegs.reset with enable := true } }

def withEngine (e : EngineState) (s : State) : State := { s with engine := { state := e, haltReason := .noReason } }
def withMode (m : ArrayMode) (s : State) : State := { s with arrayMode := { mode := m, idleTimer := none, wakeTimer := none, forcedSleep := false } }
def withIntake (st : IntakeState) (s : State) : State := { s with intake := { s.intake with state := st, pollTimer := none } }

def entryAt (i : SlotId) (f : Option Footprint) (w : Option WaitReason) : TableEntry := { slot := i, wait := w, footprint := f, started := false }

/-- An order in slot `i` and in the table entry of lane `l`. -/
def hold (l : Lane) (i : SlotId) (o : PoolOrder) (f : Option Footprint) (s : State) : State :=
  setEntry l (some (entryAt i f none)) (setSlot i (some o) s)

/-- An access outstanding with tag 7. -/
def awaiting (r : Request) (s : State) : State :=
  { s with
    channel := { s.channel with
      outstanding := some
        { request := r, tag := 7, address := 0, payload := .read 4, stage := .first, limitUs := 8, carriesNotify := false } } }

theorem awaits (r : Request) (s : State) : Awaits (awaiting r s) 7 r := ⟨_, rfl, rfl, rfl⟩

def page (left : Bool) : PageRecord := { serial := 0, address := 512, takenCount := 0, finishedCount := 0, left := left }
def withPages (n : Nat) (s : State) : State := { s with intake := { s.intake with records := List.replicate n (page true) } }

def generator (count : Nat) : Generator :=
  { nextStroke := 0, strokeCount := count, issuing := true, prefixLen := 0, ahead := [], barrier := none, armingList := [] }

def stroke (k : StrokeKind) (b : Option BufferId) (i : Nat) : StrokeRecord :=
  { id := { lane := 0, seq := 0, index := i }, kind := k, place := 64 * i, hostPlace := 0, destPlace := 0, buffer := b, phase := firstPhase k, corrected := 0 }
def withStrokes (l : List StrokeRecord) (s : State) : State := { s with strokes := { s.strokes with records := l } }

/-- Bank 0 in a state, with its requests and account. -/
def withBank (st : BankState) (row : Option (BitVec 14)) (qs : List BankRequest) (account : Int) (s : State) : State :=
  setRefresh 0 { account := account, k := 1, timer := some { windowMs := 64, groups := 128 }, void := false, interval := 0 }
    (setBank 0 { Bank.reset with state := st, openRow := row, requests := qs } s)
def request (q : Word) (row : BitVec 14) : BankRequest := { seq := q, row := row, column := 0, kind := .read, stroke := none }
def withStreak (n : Nat) (s : State) : State := setBank 0 { s.banks[(0 : BankId)] with streak := n } s

/-- Region 0 in a state. -/
def withRegion (st : RegionState) (s : State) : State := setRegion 0 (Region.become st) s
/-- A switch controller serving domain 0. -/
def serving (p : SwitchPhase) (down : Bool) (s : State) : State :=
  { s with domains := { s.domains with
      serving := some { domain := 0, on := false, owner := none, phase := p, lowerDown := down, upperDown := down }
      rampTimer := some 10 } }

/-! ## Commands of the System Port (statements on resets and registers) -/

theorem test_meets_powerOn_front : ({ State.reset with pending := [.nudge 0] } : State).pending = .nudge 0 :: [] ∧ State.reset.pending = [] := by decide
theorem test_powerOnReset_clears : (after .powerOnReset live).engine.state = .disabled := by decide
theorem test_meets_pinReset : State.reset.port.resetHeld = false ∧ State.reset.domains.serving = none ∧ State.reset.arrayMode.mode = .run
    ∧ (withMode .enteringSleep State.reset).arrayMode.mode = .enteringSleep ∧ (withMode .asleep live).port.resetHeld = false
    ∧ (withMode .waking live).arrayMode.mode = .waking
    ∧ (withBank .idle none [] 0 State.reset).banks[(0 : BankId)].state = .idle := by decide
theorem test_pinReset_sleeps : (after .pinReset State.reset).arrayMode.mode = .asleep ∧ (after .pinReset live).port.resetHeld = true := by decide
theorem test_meets_engineReset : State.reset.port.resetHeld = false ∧ ∀ b, BankRefreshLegal State.reset b := by
  refine ⟨rfl, fun b => ?_⟩
  unfold BankRefreshLegal
  revert b
  decide
theorem test_engineReset_keeps_registers : (after (.engineReset 2) live).port.poll = 2 ∧ (after (.engineReset 2) live).port.enable = false := by decide
theorem test_meets_reads : live.port.resetHeld = false ∧ readRegister live 0x00#5 .word = 0x3221#32 ∧ readRegister live 0x10#5 .word = 2#32
    ∧ readRegister live 0x03#5 .half = 0 ∧ readRegister live 0x01#5 .byte = 0x32#32 ∧ readRegister live 0x02#5 .word = 0
    ∧ conditionWord live = 0 := by decide
theorem test_meets_held_window : (after .pinReset State.reset).port.resetHeld = true
    ∧ (after .resetNRelease (after .pinReset State.reset)).port.resetHeld = false := by decide
theorem test_meets_control_fields : live.port.resetHeld = false ∧ (0x4231#32).getLsbD 1 = false ∧ (0x4231#32).getLsbD 0 = live.port.enable
    ∧ (0x4230#32).getLsbD 0 = State.reset.port.enable := by decide
theorem test_pollSet : (after (.pollSet 0x3231) (withIntake .watch live)).intake.pollTimer = some 2000 := by decide
theorem test_idleSleepSet : (after (.idleSleepSet 0x3020) State.reset).arrayMode.idleTimer = none := by decide
theorem test_responseSet : (after (.responseSet 0x7220) State.reset).port.response = 7 := by decide
theorem test_meets_enable : State.reset.port.resetHeld = false ∧ State.reset.port.enable = false ∧ State.reset.engine.state = .disabled
    ∧ State.reset.channel.queue = [] ∧ State.reset.channel.outstanding = none ∧ (0x3221#32).getLsbD 0 = true
    ∧ (0x3221#32).getLsbD 1 = false := by decide
theorem test_engineEnable_reads_exbase : (after (.engineEnable 0x3221) State.reset).channel.outstanding.isSome = true := by decide
theorem test_meets_resume : (withEngine .draining State.reset).engine.state = .draining ∧ (withEngine .starting live).engine.state = .starting
    ∧ (withEngine .halted live).engine.state = .halted ∧ State.reset.intake.nudgePending = false ∧ State.reset.intake.readAbandoned = false := by decide
theorem test_meets_disable : live.engine.state = .running ∧ live.port.enable = true ∧ occupied live = 0 ∧ reportHeld live = false
    ∧ intakeOutstanding live = false ∧ intakeOutstanding (awaiting (.intakeRead .tally) live) = true
    ∧ occupied (setSlot 15 (some (order (fillEntry 0) .queued)) live) = 1 ∧ (0x3220#32).getLsbD 0 = false := by decide
theorem test_engineDisable : (after (.engineDisable 0x3220) live).engine.state = .disabled
    ∧ (after (.engineDisable 0x3220) (awaiting (.intakeRead .tally) live)).engine.state = .draining := by decide
theorem test_engineDrained : (after .engineDrained (withEngine .draining live)).port.drainedPending = true
    ∧ after .engineDrained live = live := by decide
theorem test_exbaseWrite : (after (.exbaseWrite 0xFFFFFFFF) State.reset).port.exbase = 0x3FFFFFF ∧ after (.exbaseWrite 64) live = live := by decide
theorem test_eventsWrite : intAsserted (after (.eventsWrite 0xF00) { live with port := { live.port with alertPending := true } }) = true
    ∧ intAsserted (after (.eventsWrite 0xF0F) { live with port := { live.port with alertPending := true } }) = false := by decide
theorem test_meets_nudge : (withIntake .watch live).intake.state = .watch ∧ (withIntake .reading live).intake.state = .reading
    ∧ (withIntake .stalledPool live).intake.state = .stalledPool ∧ (withIntake .stalledPages live).intake.state = .stalledPages
    ∧ (withIntake .broken { live with intake := { live.intake with failedStep := some .entry } }).intake.failedStep = some .entry
    ∧ live.intake.state = .off ∧ live.engine.state = .running ∧ State.reset.engine.state = .disabled := by decide
theorem test_nudge_reads_the_tally : (after (.nudge 0) (withIntake .watch live)).channel.outstanding.isSome = true := by decide
theorem test_meets_other_tag : State.reset.channel.outstanding = none
    ∧ ∀ a, (awaiting .startRead State.reset).channel.outstanding = some a → a.tag ≠ 8 := by
  refine ⟨rfl, fun a h => ?_⟩
  cases h
  decide
theorem test_staleResponseDiscard : after (.staleResponseDiscard 3) live = live ∧ after (.registerWriteOther 0 .half 5) live = live := by decide

/-! ## CANCEL -/

theorem test_meets_cancel_untaken : engineLive live = true ∧ engineLive State.reset = false ∧ ((0 : Word) - live.pool.taken).toNat = 0
    ∧ ((0x7FFFFFFF : Word) - live.pool.taken).toNat = 2147483647 ∧ live.pool.cancelList.length < 4
    ∧ (0 : Word) ∈ ({ live with pool := { live.pool with cancelList := [0] } } : State).pool.cancelList
    ∧ (0 : Word) ∉ ([1, 2, 3, 4] : List Word) ∧ 4 ≤ ([1, 2, 3, 4] : List Word).length := by decide
theorem test_cancel_untaken : (after (.cancel 5) live).pool.cancelList = [5] ∧ (after (.cancel 5) State.reset).port.cancelStatus = .refusedState := by decide

/-- A live state with order 0 taken into slot 0. -/
def taken (st : Lifecycle) : State :=
  let s := setSlot 0 (some (order (fillEntry 0) st)) live
  let s := if st = .queued then s else setEntry 0 (some (entryAt 0 none none)) s
  { s with pool := { s.pool with taken := 1 } }

theorem taken_others (st : Lifecycle) (i : SlotId) (h : i ≠ 0) : slotOrder (taken st) i = none := by
  cases st <;> revert i <;> decide

theorem test_meets_cancel_alone (st : Lifecycle) (j : SlotId) (p : PoolOrder) (h : slotOrder (taken st) j = some p) (_ : p.seq = 0) : j = 0 := by
  refine Decidable.byContradiction fun hj => ?_
  rw [taken_others st j hj] at h
  cases h

/-- Domain 0's ramp serves the order of lane 0. -/
def ramping (s : State) : State :=
  { s with
    domains := { s.domains with
      serving := some
        { domain := 0, on := true, owner := some { lane := 0, seq := 0 }, phase := .rising, lowerDown := false, upperDown := false }
      rampTimer := some 40 } }

theorem test_meets_cancel_taken : ((0 : Word) - (taken .queued).pool.taken).toNat = 4294967295
    ∧ ((0x80000001 : Word) - (taken .queued).pool.taken).toNat = 2147483648
    ∧ (∀ st ∈ [Lifecycle.queued, .waiting, .running, .stopping, .reporting],
        slotOrder (taken st) 0 = some (order (fillEntry 0) st) ∧ engineLive (taken st) = true ∧ (order (fillEntry 0) st).seq = 0)
    ∧ (∀ st ∈ [Lifecycle.waiting, .running], laneEntry (taken st) 0 = some (entryAt 0 none none))
    ∧ rampOf (taken .running) { lane := 0, seq := 0 } = false ∧ inFlight (taken .running) 0 = 0
    ∧ inFlight (withStrokes [stroke .fill none 0] (taken .running)) 0 = 1
    ∧ rampOf (ramping (taken .running)) { lane := 0, seq := 0 } = true := by decide
theorem test_meets_cancel_gone (i : SlotId) (o : PoolOrder) (h : slotOrder live i = some o) : o.seq ≠ 0xFFFFFFFF := by
  have hn : ∀ i, slotOrder live i = none := by decide
  rw [hn] at h
  cases h
theorem test_cancel_waiting : (after (.cancel 0) (taken .waiting)).port.cancelStatus = .applied
    ∧ (after (.cancel 0) (taken .queued)).port.cancelStatus = .applied := by decide

/-! ## The master channel -/

/-- A state with requests queued. -/
def queued (q : List Request) (s : State) : State := { s with channel := { s.channel with queue := q } }
def data (i : Nat) : Request := .hostRead { lane := 0, seq := 0, index := i }

theorem test_meets_accessIssue : (awaiting .release live).channel.outstanding.isSome = true
    ∧ (queued [data 0] (withEngine .halted live)).channel.queue.filter (mayIssue .halted) = []
    ∧ (queued [data 0, .result 3, .release] live).channel.queue.filter (mayIssue .running) = [data 0] ++ .result 3 :: [.release]
    ∧ (queued [data 0, .intakeRead .entry] live).channel.queue.filter (mayIssue .running) = [data 0] ++ .intakeRead .entry :: []
    ∧ (queued [data 3, data 1, data 2] live).channel.queue.filter (mayIssue .running) = [data 3] ++ data 1 :: [data 2]
    ∧ dataBefore { lane := 0, seq := 0, index := 1 } { lane := 0, seq := 0, index := 3 } = true
    ∧ dataBefore { lane := 0, seq := 0, index := 2 } { lane := 0, seq := 0, index := 1 } = false := by decide
theorem test_accessIssue_prefers_reports : (after .accessIssue (queued [data 0, .result 3] live)).channel.queue = [data 0] := by decide
theorem test_meets_access_addresses : slotOrder (taken .reporting) 0 = some (order (fillEntry 0) .reporting)
    ∧ (withPages 1 live).intake.records = page true :: [] ∧ (255 : Nat) < 256 ∧ (65535 : Nat) < 65536
    ∧ findStroke (withStrokes [stroke .load (some 0) 1] live) { lane := 0, seq := 0, index := 1 } = some (stroke .load (some 0) 1) := by decide
theorem test_meets_strokeData : (stroke .fetch (some 0) 1).buffer = some 0 ∧ strokeData { live with strokes := { live.strokes with
    buffers := live.strokes.buffers.set 0 (some { holder := { lane := 0, seq := 0, index := 1 }, data := some (Vector.replicate 64 0x5A) }) } }
      (stroke .fetch (some 0) 1) = Vector.replicate 64 0x5A := by decide

/-- The same access reissued. -/
def reissued (r : Request) (s : State) : State :=
  { s with
    channel := { s.channel with
      outstanding := some
        { request := r, tag := 7, address := 0, payload := .read 4, stage := .reissued, limitUs := 8, carriesNotify := false } } }
theorem test_meets_responseLimit : State.reset.channel.outstanding = none
    ∧ ((awaiting .release live).channel.outstanding.map (·.stage)) = some .first
    ∧ ((reissued .release live).channel.outstanding.map fun a => (a.stage, a.request.isReport)) = some (.reissued, true)
    ∧ ((reissued .startRead live).channel.outstanding.map (·.request)) = some .startRead
    ∧ ((reissued (.intakeRead .next) live).channel.outstanding.map (·.request)) = some (.intakeRead .next)
    ∧ ((reissued (data 0) live).channel.outstanding.map fun a => a.request.dataStroke.isSome) = some true := by decide
theorem test_responseLimitExpiry : (after .responseLimitExpiry (reissued .release live)).engine.state = .halted := by decide

/-! ## The engine -/

theorem test_meets_startRead : Awaits (awaiting .startRead (withEngine .starting live)) 7 .startRead
    ∧ HeaderFlagAgrees (awaiting .startRead (withEngine .starting live)) :=
  ⟨awaits _ _, by unfold HeaderFlagAgrees; decide⟩
theorem test_meets_firstPages : (0 : Word) = 0 ∧ (511 : Word).toNat % 512 ≠ 0 ∧ (512 : Word) ≠ 0 ∧ (512 : Word).toNat % 512 = 0
    ∧ live.port.enable = true ∧ State.reset.port.enable = false := by decide
theorem test_startReadComplete : (after (.startReadComplete 7 0 512) (awaiting .startRead (withEngine .starting live))).engine.state = .running
    ∧ (after (.startReadComplete 7 0 511) (awaiting .startRead (withEngine .starting live))).engine.haltReason = .start := by decide
theorem test_startReadFail : (after (.startReadFail 7) (awaiting .startRead (withEngine .starting live))).port.faultPending = true := by decide

/-- One order alone in the pool, held by lane 0's entry, with no reporting write, is in its place. -/
theorem placed_alone (s : State) (o : PoolOrder) (e : TableEntry) (he : laneEntry s 0 = some e ∧ e.slot = 0)
    (hn : ∀ l : Lane, l ≠ 0 → laneEntry s l = none) (ho : slotOrder s 0 = some o) (hm : ∀ i : SlotId, i ≠ 0 → slotOrder s i = none)
    (hq : ∀ l : Lane, s.pool.queues[l] = []) (hl : o.entry.lane = 0 ∧ o.life ≠ .queued) (hr : ∀ i, reportWrites s i = 0) : OrdersPlaced s := by
  have only : ∀ i p, slotOrder s i = some p → i = 0 ∧ p = o := fun i p h => by
    by_cases hi : i = 0
    · subst hi
      exact ⟨rfl, Option.some.inj (h.symm.trans ho)⟩
    · rw [hm i hi] at h
      cases h
  refine ⟨fun l d h => ?_, fun l => ?_, fun i p h hw => ?_, fun i p h _ => ?_, fun i => ?_⟩
  · by_cases hz : l = 0
    · subst hz
      obtain rfl : d = e := Option.some.inj (h.symm.trans he.1)
      exact ⟨o, he.2 ▸ ho, hl.1, hl.2⟩
    · rw [hn l hz] at h
      cases h
  · rw [hq l]
    exact ⟨List.nodup_nil, nofun⟩
  · obtain ⟨_, rfl⟩ := only i p h
    exact absurd hw hl.2
  · obtain ⟨rfl, rfl⟩ := only i p h
    rw [hl.1]
    exact ⟨e, he.1, he.2⟩
  · rw [hr i]
    exact ⟨by decide, nofun⟩

/-- The RUNNING KEEP of lane 0 that arms regions 0 and 8, region 0 one stroke short of its sweep. -/
def arming : State :=
  let region (n : Nat) : Region := { state := .arming, owner := some { lane := 0, seq := 0 }, sweep := n }
  setRegion 8 (region 0) (setRegion 0 (region 65535) (setGenerator 0 (some { generator 131072 with armingList := [0, 8] })
    (hold 0 0 (order keepEntry .running) none live)))

theorem test_meets_arming_placed : OrdersPlaced arming :=
  placed_alone arming (order keepEntry .running) (entryAt 0 none none) (by decide) (by decide) (by decide) (by decide) (by decide) (by decide)
    (by decide)
theorem test_meets_generators : GeneratorsRun arming := fun l g h => by
  have hn : ∀ l : Lane, l ≠ 0 → arming.strokes.generators[l] = none := by decide
  by_cases hz : l = 0
  · subst hz
    exact ⟨order keepEntry .running, by decide, Or.inl rfl, fun _ => rfl⟩
  · rw [hn l hz] at h
    cases h

theorem test_meets_reportFail : Awaits (awaiting .headerUpdate arming) 7 .headerUpdate ∧ Request.headerUpdate.isReport = true
    ∧ OrdersPlaced (awaiting .headerUpdate arming) :=
  ⟨awaits _ _, rfl, placed_alone (awaiting .headerUpdate arming) (order keepEntry .running) (entryAt 0 none none) (by decide) (by decide)
    (by decide) (by decide) (by decide) (by decide) (by decide)⟩
theorem test_meets_reportFail_arming : laneOrder arming 0 = some (order keepEntry .running)
    ∧ arming.regions[(0 : RegionId)].owner = some { lane := 0, seq := (order keepEntry .running).seq }
    ∧ arming.regions[(1 : RegionId)].state ≠ .arming := by decide
theorem test_reportFail_drops : (after (.reportAccessFail 7) (awaiting .headerUpdate arming)).regions[(8 : RegionId)].state = .dropped := by decide +kernel
theorem test_reportAccessFail : (after (.reportAccessFail 7) (awaiting .headerUpdate (taken .running))).engine.haltReason = .reportBus := by decide

/-! ## The intake -/

def reading (step : ReadStep) (s : State) : State := awaiting (.intakeRead step) (withIntake .reading s)
def abandoned (s : State) : State := { s with intake := { s.intake with readAbandoned := true } }
def nudged (s : State) : State := { s with intake := { s.intake with nudgePending := true } }
def entered (s : State) : State := { s with intake := { s.intake with pageEntered := true } }

theorem test_meets_intake_reads (step : ReadStep) : Awaits (reading step live) 7 (.intakeRead step)
    ∧ (reading step live).intake.readAbandoned = false ∧ (reading step live).engine.state = .running :=
  ⟨awaits _ _, rfl, rfl⟩
theorem test_meets_tally : ((0 : Word) - live.intake.expected).toNat = 0 ∧ 1 ≤ ((1 : Word) - live.intake.expected).toNat
    ∧ ((0x7FFFFFFF : Word) - live.intake.expected).toNat < 2147483648 ∧ 2147483648 ≤ ((0x80000000 : Word) - live.intake.expected).toNat
    ∧ (nudged live).intake.nudgePending = true ∧ live.intake.nudgePending = false := by decide
theorem test_tallyReadComplete : (after (.tallyReadComplete 7 0) (reading .tally live)).intake.state = .watch
    ∧ (after (.tallyReadComplete 7 0x80000000) (reading .tally live)).intake.faultReason = .tally := by decide
theorem test_meets_next : (0 : Word) = 0 ∧ (1 : Word) ≠ 0 ∧ (1 : Word).toNat % 512 ≠ 0 ∧ (0xFFFFFE00 : Word).toNat % 512 = 0 := by decide
theorem test_nextReadComplete : (after (.nextReadComplete 7 0) (reading .next live)).intake.faultReason = .noNext
    ∧ (after (.nextReadComplete 7 1024) (reading .next live)).intake.candidate = 1024 := by decide
theorem test_meets_firstSeq : (0 : Word) = live.intake.expected ∧ (1 : Word) ≠ live.intake.expected ∧ live.intake.pageEntered = false
    ∧ (entered (withPages 2 live)).intake.pageEntered = true ∧ (withPages 2 live).intake.records = [page true] ++ [page true]
    ∧ (withPages 2 live).intake.records = page true :: [page true] ∧ (page true).left = true
    ∧ (page true).finishedCount = (page true).takenCount ∧ live.reporting.releaseInProgress = false := by decide
theorem test_firstSeqReadComplete : (after (.firstSeqReadComplete 7 0) (reading .header live)).intake.pageEntered = true
    ∧ (after (.firstSeqReadComplete 7 1) (reading .header live)).intake.failedStep = some .header := by decide
theorem test_meets_entry : (fillEntry 0).estate = 1 ∧ (fillEntry 0).word1 = live.intake.expected ∧ slotOrder live 0 = none
    ∧ (entry 0 0 0 0 0 0).estate ≠ 1 ∧ (fillEntry 1).word1 ≠ live.intake.expected ∧ (withPages 1 live).intake.records = [] ++ [page true]
    ∧ live.intake.expected = live.intake.target ∧ ({ live.intake with target := 1 } : Intake).target ≠ live.intake.expected := by decide
theorem test_meets_oldest : (∀ i : SlotId, live.pool.slots[i] = none) ∧ (taken .queued).pool.slots[(0 : SlotId)] = some (order (fillEntry 0) .queued)
    ∧ computeOldest (setSlot 3 (some (order (fillEntry 0xFFFFFFFF) .queued)) (taken .queued)).pool = 0xFFFFFFFF := by decide
theorem test_meets_oldest_span (j : SlotId) (x : PoolOrder) (h : (taken .queued).pool.slots[j] = some x) : (x.seq - 0).toNat < 2147483648 := by
  by_cases hj : j = 0
  · subst hj
    obtain rfl : order (fillEntry 0) .queued = x := Option.some.inj h
    decide
  · have hn : slotOrder (taken .queued) j = some x := h
    rw [taken_others _ j hj] at hn
    cases hn
theorem test_entryReadComplete : (after (.entryReadComplete 7 (fillEntry 0)) (reading .entry live)).pool.taken = 1
    ∧ (after (.entryReadComplete 7 (fillEntry 1)) (reading .entry live)).intake.faultReason = .entryMismatch := by decide
theorem test_meets_abandoned (step : ReadStep) : Awaits (abandoned (reading step live)) 7 (.intakeRead step)
    ∧ (abandoned (reading step live)).intake.readAbandoned = true ∧ (abandoned (reading step live)).engine.state = .running
    ∧ (abandoned (reading step (withEngine .draining live))).engine.state = .draining :=
  ⟨⟨_, rfl, rfl, rfl⟩, rfl, rfl, rfl⟩
theorem test_meets_abandoned_drain : occupied live = 0 ∧ live.channel.queue.any Request.isReport = false
    ∧ occupied (setSlot 0 (some (order (fillEntry 0) .queued)) live) ≠ 0 := by decide
theorem test_intakeReadFail : (after (.intakeReadFail 7) (reading .next live)).intake.faultReason = .bus
    ∧ (after (.intakeReadFail 7) (abandoned (reading .next (withEngine .draining live)))).engine.state = .disabled := by decide
theorem test_meets_waiting_intake : (withIntake .watch live).intake.pollTimer = none ∧ (withIntake .off live).intake.state ≠ .watch
    ∧ ({ (withIntake .watch live).intake with pollTimer := some 200 } : Intake).pollTimer.isSome = true
    ∧ (withIntake .stalledPool live).intake.state = .stalledPool ∧ slotOrder live 15 = none
    ∧ (withPages 3 (withIntake .stalledPages live)).intake.records.length < 4 ∧ 4 ≤ (withPages 4 live).intake.records.length := by decide
/-- RUNNING in WATCH with the poll timer running and the channel idle. -/
def polling : State := { live with intake := { live.intake with state := .watch, pollTimer := some 200 } }
theorem test_meets_poll_nudge : polling.port.resetHeld = false ∧ polling.engine.state = .running ∧ polling.intake.state = .watch
    ∧ polling.intake.pollTimer.isSome = true ∧ polling.channel.queue = [] ∧ polling.channel.outstanding = none := by decide
/-- The same with a NUDGE waiting. -/
def nudgeWaits : State := { polling with pending := [.nudge 0] }
theorem test_poll_and_nudge_read_once :
    ((after (.tallyReadComplete 0 0) (after (.nudge 0) (after .pollTimerExpiry nudgeWaits))).channel.outstanding.map (·.request)) = some .headerUpdate
    ∧ (after (.tallyReadComplete 0 0) (after (.nudge 0) (after .pollTimerExpiry nudgeWaits))).intake.state = .watch := by decide
theorem test_stalledPoolEnd : (after .stalledPoolEnd (withIntake .stalledPool live)).intake.readStep = some .entry := by decide
theorem test_pollTimerExpiry : ((after .pollTimerExpiry polling).channel.outstanding.map (·.request)) = some (.intakeRead .tally)
    ∧ (after .pollTimerExpiry nudgeWaits).channel.queue = [.intakeRead .tally] := by decide
theorem test_stalledPagesEnd : (after .stalledPagesEnd (withPages 3 (withIntake .stalledPages live))).intake.readStep = some .header
    ∧ (after .stalledPagesEnd (withPages 4 (withIntake .stalledPages live))).intake.state = .stalledPages := by decide

/-! ## Reporting -/

theorem test_meets_reports : Awaits (awaiting (.result 0) live) 7 (.result 0) ∧ Awaits (awaiting (.estate 0) (taken .reporting)) 7 (.estate 0)
    ∧ slotOrder (awaiting (.estate 0) (taken .reporting)) 0 = some (order (fillEntry 0) .reporting)
    ∧ Awaits (awaiting .release (withPages 1 live)) 7 .release ∧ Awaits (awaiting .headerUpdate live) 7 .headerUpdate :=
  ⟨awaits _ _, awaits _ _, by decide, awaits _ _, awaits _ _⟩
theorem test_meets_header_drain : (withEngine .draining live).engine.state = .draining ∧ occupied (withEngine .draining live) = 0 := by decide
theorem test_resultWriteComplete : ((after (.resultWriteComplete 7) (awaiting (.result 0) (taken .reporting))).channel.outstanding.map (·.request))
    = some (.estate 0) := by decide
theorem test_estateWriteComplete : (after (.estateWriteComplete 7) (awaiting (.estate 0) (taken .reporting))).pool.finished = 1 := by decide
theorem test_headerUpdateComplete : (after (.headerUpdateComplete 7) (awaiting .headerUpdate (withEngine .draining live))).engine.state = .disabled := by decide
theorem test_meets_release : (withPages 1 live).intake.records = page true :: [] ∧ engineLive live = true ∧ live.reporting.releaseInProgress = false
    ∧ (page true).left = true ∧ (page true).finishedCount = (page true).takenCount ∧ (page false).left = false ∧ live.intake.records = [] := by decide
theorem test_releaseRequest : ((after .releaseRequest (withPages 1 live)).channel.outstanding.map (·.request)) = some .release := by decide
theorem test_releaseWriteComplete : (after (.releaseWriteComplete 7) (awaiting .release (withPages 1 live))).reporting.released = 1 := by decide

/-! ## Admission and the interlock -/

/-- An order in slot 0 at the head of lane 0's queue. -/
def head (o : PoolOrder) : State :=
  let s := setSlot 0 (some o) live
  { s with pool := { s.pool with queues := s.pool.queues.set 0 [0] } }

theorem test_meets_promotion : laneEntry live 0 = none ∧ live.pool.queues[(0 : Lane)] = [] ∧ engineLive State.reset = false
    ∧ (head (order (fillEntry 0) .queued)).pool.queues[(0 : Lane)] = 0 :: []
    ∧ slotOrder (head (order (fillEntry 0) .queued)) 0 = some (order (fillEntry 0) .queued)
    ∧ ({ order (fillEntry 0) .queued with cancelMark := true } : PoolOrder).cancelMark = true
    ∧ staticCheck (entry 0x01000009 0 0 0 0 0) = some 1 ∧ staticCheck (entry 0x01000000 0 0 0 0 0) = some 1
    ∧ staticCheck markEntry = none ∧ (order markEntry .queued).kind = some .mark ∧ live.pool.oldestOpen = (order markEntry .queued).seq
    ∧ live.pool.oldestOpen ≠ (order { markEntry with word1 := 1 } .queued).seq
    ∧ staticCheck (fillEntry 0) = none ∧ (order (fillEntry 0) .queued).kind = some .fill := by decide
theorem test_promotion : (after (.promotion 0) (head (order markEntry .queued))).pool.queues[(0 : Lane)] = []
    ∧ laneLife (after (.promotion 0) (head (order (fillEntry 0) .queued))) 0 = some .reporting := by decide
theorem test_staticChecks : staticCheck (entry 0x01000804 0 0 0 64 0) = some 2 ∧ staticCheck (entry 0x01000004 0 0 1 64 0) = some 3
    ∧ staticCheck (entry 0x01000004 0 0 0 0 0) = some 4 ∧ staticCheck (entry 0x01000004 0 0 0x0FFFFFC0 128 0) = some 5
    ∧ staticCheck (entry 0x01000001 0 4 0 64 0) = some 6 ∧ staticCheck (entry 0x01000003 0 0 0 128 64) = some 7
    ∧ staticCheck (entry 0x01000006 0 0 0 0 0x100) = some 8 ∧ staticCheck (entry 0x01000007 0 0 0 0 4) = some 9 := by decide

def writes : Footprint := { intervals := [{ base := 0, length := 64, write := true }], regions := [0], whole := false }
def wholeRegion : Footprint := { intervals := [], regions := [0], whole := true }

theorem test_meets_conflicts : writes.whole = false ∧ wholeRegion.whole = true ∧ OrderKind.fill.isData = true
    ∧ laneEntry (taken .running) 0 = some (entryAt 0 none none) ∧ (entryAt 0 none none).footprint = none
    ∧ 268435392 + 64 ≤ 268435456 := by decide
theorem test_conflicts : writes.conflicts writes = true ∧ wholeRegion.conflicts writes = true
    ∧ (footprintOf markEntry .mark).conflicts wholeRegion = false := by decide

/-- A WAITING order of lane 0 with footprint `f`. -/
def waiting (e : EntryWords) (f : Footprint) : State := hold 0 0 (order e .waiting) (some f) live

theorem test_meets_startTest : laneEntry (waiting (fillEntry 0) writes) 0 = some (entryAt 0 (some writes) none)
    ∧ slotOrder (waiting (fillEntry 0) writes) 0 = some (order (fillEntry 0) .waiting) ∧ (order (fillEntry 0) .waiting).kind = some .fill
    ∧ (entryAt 0 (some writes) none).started = false ∧ live.engine.state ≠ .halted
    ∧ writes.conflicts writes = true
    ∧ laneEntry (hold 1 1 (order (fillEntry 1) .running) (some writes) (waiting (fillEntry 0) writes)) 1 = some (entryAt 1 (some writes) none)
    ∧ writes.regions = [] ++ 0 :: [] ∧ startState .fill (regionState live 0) = some .domainOff
    ∧ startState .fill (regionState (withRegion .kept live) 0) = none ∧ live.arrayMode.mode = .run
    ∧ (withMode .asleep live).arrayMode.mode = .asleep ∧ (withMode .waking live).arrayMode.mode ≠ .asleep := by decide
theorem test_meets_no_interlock (m : Lane) (d : TableEntry) (y : PoolOrder) (hm : m ≠ 0) (hd : laneEntry (waiting (fillEntry 0) writes) m = some d)
    (_ : laneOrder (waiting (fillEntry 0) writes) m = some y) : seqBefore y.seq 0 = false := by
  have hn : ∀ m : Lane, m ≠ 0 → laneEntry (waiting (fillEntry 0) writes) m = none := by decide
  rw [hn m hm] at hd
  cases hd
theorem test_meets_start : interlockFails (waiting (fillEntry 0) writes) 0 (order (fillEntry 0) .waiting) writes = false
    ∧ (order keepEntry .waiting).kind = some .retain ∧ keepEntry.keep = true ∧ dropEntry.keep = false
    ∧ (withRegion .lost live).regions[(0 : RegionId)].state = .lost ∧ (withRegion .kept live).regions[(0 : RegionId)].state = .kept
    ∧ startState .retain .dropped = none ∧ (order powerEntry .waiting).kind = some .power
    ∧ live.domains.states[powerEntry.domain] ≠ (if powerEntry.powerOn then .on else .off)
    ∧ live.domains.states[dropEntry.domain] = .off := by decide
/-- What a start test asks of lane 0, all at once. -/
def testable (e : EntryWords) (f : Footprint) (k : OrderKind) (s : State) : Bool :=
  laneEntry s 0 == some (entryAt 0 (some f) none) && slotOrder s 0 == some (order e .waiting) && (order e .waiting).kind == some k
    && k != .mark && s.engine.state != .halted

/-- All regions of the footprint allowed, no interlock, in RUN. -/
def startable (e : EntryWords) (f : Footprint) (k : OrderKind) (s : State) : Bool :=
  testable e f k s && !interlockFails s 0 (order e .waiting) f && f.regions.all (fun x => startState k (regionState s x) == none)
    && s.arrayMode.mode == .run

theorem test_meets_startTest_clauses :
    testable (fillEntry 0) writes .fill (hold 1 1 (order (fillEntry 0xFFFFFFFF) .waiting) (some writes) (waiting (fillEntry 0) writes)) = true
    ∧ interlockFails (hold 1 1 (order (fillEntry 0xFFFFFFFF) .waiting) (some writes) (waiting (fillEntry 0) writes)) 0
        (order (fillEntry 0) .waiting) writes = true
    ∧ testable (fillEntry 0) writes .fill (withRegion .arming (waiting (fillEntry 0) writes)) = true
    ∧ startState .fill (regionState (withRegion .arming (waiting (fillEntry 0) writes)) 0) = some .regionDropped
    ∧ testable (fillEntry 0) writes .fill (withMode .asleep (withRegion .kept (waiting (fillEntry 0) writes))) = true
    ∧ startState .fill (regionState (withMode .asleep (withRegion .kept (waiting (fillEntry 0) writes))) 0) = none := by decide

theorem test_meets_start_clauses :
    startable (fillEntry 0) writes .fill (withRegion .kept (waiting (fillEntry 0) writes)) = true
    ∧ startable dropEntry wholeRegion .retain (withRegion .lost (waiting dropEntry wholeRegion)) = true
    ∧ startable keepEntry wholeRegion .retain (withRegion .kept (waiting keepEntry wholeRegion)) = true
    ∧ startable keepEntry wholeRegion .retain (withRegion .dropped (waiting keepEntry wholeRegion)) = true
    ∧ startable powerEntry wholeRegion .power (waiting powerEntry wholeRegion) = true := by decide

theorem test_startTest : laneLife (after (.startTest 0) (waiting powerEntry wholeRegion)) 0 = some .running
    ∧ (after (.startTest 0) (waiting powerEntry wholeRegion)).domains.states[(0 : DomainId)] = .rampingUp := by decide
theorem test_meets_mark : (entryAt 0 none (some .earlier)).wait = some .earlier ∧ (order markEntry .waiting).kind = some .mark
    ∧ live.pool.oldestOpen = (order markEntry .waiting).seq ∧ live.pool.oldestOpen ≠ (order { markEntry with word1 := 1 } .waiting).seq := by decide
theorem test_meets_no_mark : (order (fillEntry 0) .waiting).kind ≠ some .mark ∧ laneLife (taken .running) 0 ≠ some .waiting
    ∧ (withEngine .halted live).engine.state = .halted := by decide
theorem test_markFinish :
    laneLife (after (.markFinish 0) (setEntry 0 (some (entryAt 0 none (some .earlier))) (setSlot 0 (some (order markEntry .waiting)) live))) 0
      = some .reporting := by decide
/-- A STOPPING order of lane 0 with a cause. -/
def stopping : State := hold 0 0 { order (fillEntry 0) .stopping with stopCause := some .cancelled } (some writes) live
theorem test_meets_stoppingEnd : laneEntry stopping 0 = some (entryAt 0 (some writes) none) ∧ laneInFlight stopping 0 = false
    ∧ laneLife stopping 0 = some .stopping ∧ laneInFlight (withStrokes [stroke .fill none 0] stopping) 0 = true
    ∧ (laneOrder (taken .stopping) 0).map (·.stopCause) = some none := by decide
theorem test_stoppingEnd : laneLife (after (.stoppingEnd 0) stopping) 0 = some .reporting
    ∧ laneLife (after (.stoppingEnd 0) (withStrokes [stroke .fill none 0] stopping)) 0 = some .stopping := by decide

/-! ## Strokes -/

/-- A RUNNING order of lane 0 with a generator of two strokes. -/
def running (e : EntryWords) : State := setGenerator 0 (some (generator 2)) (hold 0 0 (order e .running) (some writes) live)

theorem test_meets_addresses : 0 < 268435456 ∧ 268435455 < 268435456 ∧ ([63] : List RegionId)[65535 / 65536]? = some 63
    ∧ ([0, 63] : List RegionId)[65536 / 65536]? = some 63 := by decide
theorem test_meets_strokeIssue : laneOrder (running (fillEntry 0)) 0 = some (order (fillEntry 0) .running)
    ∧ (running (fillEntry 0)).strokes.generators[(0 : Lane)] = some (generator 2)
    ∧ (order (fillEntry 0) .running).kind.bind strokeKindOf = some .fill ∧ (order loadEntry .running).kind.bind strokeKindOf = some .load
    ∧ inFlight (running (fillEntry 0)) 0 < 4 ∧ sweepReady (order (fillEntry 0) .running) (generator 2) = true
    ∧ freeBuffer (running loadEntry) = some 0 ∧ nextWanter (running loadEntry) = some 0
    ∧ failedRegion (running (fillEntry 0)) { lane := 0, seq := 0 } .fill 0 0 = some 0
    ∧ failedRegion (withRegion .kept (running (fillEntry 0))) { lane := 0, seq := 0 } .fill 0 0 = none
    ∧ (running (fillEntry 0)).banks[addrBank 0].state = .unpowered
    ∧ (withBank .idle none [] 0 (running (fillEntry 0))).banks[addrBank 0].state ≠ .unpowered := by decide
theorem test_strokeIssue : (after (.strokeIssue 0) (withBank .idle none [] 0 (withRegion .kept (running (fillEntry 0))))).strokes.records.length = 1
    ∧ laneLife (after (.strokeIssue 0) (running (fillEntry 0))) 0 = some .reporting := by decide
theorem test_meets_bufferGrant : (∀ l, wantsBuffer live l = false) ∧ freeBuffer (running loadEntry) = some 0
    ∧ nextWanter (running loadEntry) = some 0
    ∧ (∀ b : BufferId, ({ StrokeEngine.reset with buffers := Vector.replicate 8 (some { holder := { lane := 0, seq := 0, index := 0 }, data := none }) } :
        StrokeEngine).buffers[b] ≠ none) := by decide
theorem test_meets_toStopping : laneEntry (running (fillEntry 0)) 0 = some (entryAt 0 (some writes) none)
    ∧ laneInFlight (running (fillEntry 0)) 0 = false ∧ laneInFlight (withStrokes [stroke .fill none 0] (running (fillEntry 0))) 0 = true
    ∧ (taken .stopping).engine.state ≠ .halted ∧ laneLife (taken .stopping) 0 = some .stopping := by decide
theorem test_toStopping : laneLife (toStopping 0 (some .dataError) (running (fillEntry 0))) 0 = some .reporting
    ∧ laneLife (toStopping 0 none (running (fillEntry 0))) 0 = some .stopping := by decide
theorem test_joinBank : (joinBank 0 (request 1 3) (withBank .idle none [request 2 5] 0 live)).banks[(0 : BankId)].openRow = some 3
    ∧ (joinBank 0 (request 1 3) (withBank .closing none [request 2 5] 0 live)).banks[(0 : BankId)].requests = [request 2 5, request 1 3] := by decide
theorem test_bufferGrant : (after .bufferGrant (withRegion .kept (running loadEntry))).strokes.records.length = 2 := by decide

def someLine : Line := Vector.replicate 64 0x5A
def loading (k : StrokeKind) (r : Request) : State := awaiting r (withStrokes [stroke k (some 0) 0] (running loadEntry))
def firstStroke : StrokeId := { lane := 0, seq := 0, index := 0 }

theorem test_meets_dataAccess : Awaits (loading .load (.hostRead firstStroke)) 7 (.hostRead firstStroke)
    ∧ Awaits (loading .fetch (.hostWrite firstStroke)) 7 (.hostWrite firstStroke)
    ∧ findStroke (loading .load (.hostRead firstStroke)) firstStroke = some (stroke .load (some 0) 0)
    ∧ (loading .load (.hostRead firstStroke)).banks[addrBank 0].state = .unpowered
    ∧ (withBank .asleep none [] 0 (loading .load (.hostRead firstStroke))).banks[addrBank 0].state ≠ .unpowered :=
  ⟨awaits _ _, awaits _ _, by decide, by decide, by decide⟩
theorem test_loadHostReadComplete :
    ((after (.loadHostReadComplete 7 someLine) (withBank .idle none [] 0 (loading .load (.hostRead firstStroke)))).banks[(0 : BankId)].state) = .opening := by decide
theorem test_fetchHostWriteComplete :
    (after (.fetchHostWriteComplete 7) (withRegion .kept (loading .fetch (.hostWrite firstStroke)))).strokes.generators[(0 : Lane)].map (·.prefixLen) = some 1 := by decide
theorem test_dataAccessFail : (laneOrder (after (.dataAccessFail 7) (loading .load (.hostRead firstStroke))) 0).map (·.stopCause)
    = some (some .hostBusFault) := by decide

theorem test_meets_strokeEnds : laneEntry (running (fillEntry 0)) 0 = some (entryAt 0 (some writes) none)
    ∧ slotOrder (running (fillEntry 0)) 0 = some (order (fillEntry 0) .running) ∧ (order (fillEntry 0) .running).seq = (stroke .fill none 0).id.seq
    ∧ (generator 2).armingList = [] ∧ (stroke .fill none 0).kind ≠ .arming ∧ (enterPrefix 0 (generator 2)).prefixLen ≠ (generator 2).strokeCount
    ∧ (enterPrefix 0 (generator 1)).prefixLen = (generator 1).strokeCount
    ∧ (stroke .fill none 1).id ≠ (stroke .fill none 0).id ∧ rampOf (running (fillEntry 0)) { lane := 0, seq := 0 } = false
    ∧ (order (fillEntry 0) .stopping).life = .stopping := by decide
/-- A stroke of lane 0 with another of its order in flight, or alone, the order RUNNING or STOPPING. -/
def ending (st : Lifecycle) (n : Nat) : State :=
  withStrokes ((List.range n).map (stroke .fill none))
    (setGenerator 0 (some (generator 2)) (hold 0 0 (order (fillEntry 0) st) (some writes) live))
theorem test_meets_strokeEnds_clauses : ∀ st ∈ [Lifecycle.running, .stopping],
    laneEntry (ending st 2) 0 = some (entryAt 0 (some writes) none) ∧ slotOrder (ending st 2) 0 = some (order (fillEntry 0) st)
    ∧ (ending st 2).strokes.generators[(0 : Lane)] = some (generator 2)
    ∧ (∃ x ∈ (ending st 2).strokes.records, x.id.lane = 0 ∧ x.id ≠ firstStroke)
    ∧ (∀ x ∈ (ending st 1).strokes.records, x.id.lane = 0 → x.id = firstStroke)
    ∧ (ending st 1).engine.state ≠ .halted ∧ rampOf (ending st 1) { lane := 0, seq := 0 } = false := by decide
theorem test_meets_last_failure : OrdersPlaced (ending .running 1) :=
  placed_alone (ending .running 1) (order (fillEntry 0) .running) (entryAt 0 (some writes) none) (by decide) (by decide) (by decide)
    (by decide) (by decide) (by decide) (by decide)
theorem test_last_failure : laneLife (strokeFails (stroke .fill none 0) .dataError (ending .running 1)) 0 = some .stopping
    ∧ laneLife (strokeFailed (stroke .fill none 0) .dataError (ending .running 1)) 0 = some .reporting := by decide
theorem test_meets_armingEnds : laneEntry arming 0 = some (entryAt 0 none none) ∧ slotOrder arming 0 = some (order keepEntry .running)
    ∧ (order keepEntry .running).seq = (stroke .arming none 0).id.seq ∧ addrRegion (stroke .arming none 0).place = 0
    ∧ (arming.strokes.generators[(0 : Lane)].map (·.armingList)) = some [0, 8]
    ∧ 65536 ≤ arming.regions[(0 : RegionId)].sweep + 1 ∧ arming.regions[(8 : RegionId)].sweep + 1 < 65536
    ∧ (order keepEntry .running).done + 4194304 < 4194304 * 2 ∧ 4194304 * 1 ≤ (order keepEntry .running).done + 4194304 := by decide
theorem test_arming_ends : (strokeCompletes (stroke .arming none 0) arming).regions[(0 : RegionId)].state = .kept
    ∧ (slotOrder (strokeCompletes (stroke .arming none 0) arming) 0).map (·.done) = some 4194304 := by decide
theorem test_prefix_passes : (enterPrefix 0 { generator 4 with ahead := [2, 1] }).prefixLen = 3
    ∧ (enterPrefix 3 { generator 4 with barrier := some 3 }).ahead = [] := by decide

/-! ## Banks and refresh -/

theorem test_meets_arbiter : (withBank .idle none [] 8 live).refresh.banks[(0 : BankId)].account = 8
    ∧ (withBank .opened (some 0) [] 7 live).refresh.banks[(0 : BankId)].account < 8
    ∧ 4 ≤ (withBank .opened (some 0) [] 4 live).refresh.banks[(0 : BankId)].account
    ∧ (withBank .idle none [] 3 live).refresh.banks[(0 : BankId)].account < 4
    ∧ (withBank .opened (some 0) [request 2 1, request 1 0] 0 live).banks[(0 : BankId)].requests = [request 2 1] ++ request 1 0 :: []
    ∧ (withStreak 15 (withBank .opened (some 0) [request 1 0] 0 live)).banks[(0 : BankId)].streak < 16
    ∧ 16 ≤ (withStreak 16 (withBank .opened (some 0) [request 2 1] 0 live)).banks[(0 : BankId)].streak
    ∧ (withBank .idle none [] (-7) live).refresh.banks[(0 : BankId)].k = 1
    ∧ ¬(0 < (withBank .idle none [] (-8) live).refresh.banks[(0 : BankId)].k ∧ -8 < (withBank .idle none [] (-8) live).refresh.banks[(0 : BankId)].account) := by decide
theorem test_bankArbiterDecision : (after (.bankArbiterDecision 0) (withBank .opened (some 0) [request 2 1, request 1 0] 0 live)).banks[(0 : BankId)].inHand = some (request 1 0)
    ∧ (after (.bankArbiterDecision 0) (withBank .idle none [request 1 5] 3 live)).banks[(0 : BankId)].openRow = some 5 := by decide
theorem test_row_groups : nextGroup (fun g => g == 0 || g == 5) none = some 0 ∧ nextGroup (fun g => g == 0 || g == 5) (some 126) = some 127
    ∧ nextGroup (fun g => g == 0 || g == 5) (some 127) = some 640 ∧ nextGroup (fun g => g == 0 || g == 5) (some 767) = some 0
    ∧ nextGroup (fun g => g == 5) (some 1023) = some 640 ∧ nextGroup (fun g => g == 2) (some 383) = some 256
    ∧ nextGroup (fun _ => false) (some 3) = none := by decide
theorem test_refresh_takes_a_group :
    (after (.bankArbiterDecision 0) (withBank .idle none [] 4 (withRegion .kept live))).banks[(0 : BankId)] =
      { Bank.reset with state := .refreshing, rowGroup := some 0 } := by decide
theorem test_meets_bankOperations : (withBank .opening (some 0) [] 0 live).banks[(0 : BankId)].state = .opening
    ∧ (withBank .closing none [] 0 live).banks[(0 : BankId)].state = .closing
    ∧ (withBank .refreshing none [] (-7) live).banks[(0 : BankId)].state = .refreshing
    ∧ -8 < (withBank .refreshing none [] (-7) live).refresh.banks[(0 : BankId)].account
    ∧ (withBank .refreshing none [] (-8) live).refresh.banks[(0 : BankId)].account ≤ -8
    ∧ (serving .standingDown false live).domains.serving.map (·.phase) = some .standingDown ∧ bankDomain 0 = 0 ∧ bankDomain 1 = 0 := by decide
theorem test_meets_rest_both :
    (setBank 0 { Bank.reset with state := .idle, sleepHold := true, standDown := true } (serving .standingDown false live)).banks[(0 : BankId)].standDown = true
    ∧ (restOrDecide 0 (setBank 0 { Bank.reset with state := .idle, sleepHold := true, standDown := true }
        (serving .standingDown false live))).domains.serving.map (·.lowerDown) = some true := by decide
theorem test_bankOpenComplete : (after (.bankOpenComplete 0) (withBank .opening (some 0) [request 1 0] 0 live)).banks[(0 : BankId)].state = .accessing := by decide
theorem test_bankCloseComplete : (after (.bankCloseComplete 0) (withBank .closing (some 0) [] 4 live)).banks[(0 : BankId)].state = .refreshing := by decide
theorem test_refreshComplete : (after (.refreshComplete 0) (withBank .refreshing none [] 4 live)).refresh.banks[(0 : BankId)].account = 3 := by decide

/-- Bank 0 accessing with a request in hand. -/
def accessing (k : BankRequestKind) (s : State) : State :=
  setBank 0 { Bank.reset with state := .accessing, openRow := some 0, inHand := some { seq := 0, row := 0, column := 0, kind := k, stroke := some firstStroke } } s
def clean : LineDisturbance := Vector.replicate 8 .clean

theorem test_meets_access : (accessing .read live).banks[(0 : BankId)].state = .accessing ∧ (accessing .read live).banks[(0 : BankId)].inHand.isSome = true
    ∧ findStroke live firstStroke = none ∧ findStroke (withStrokes [stroke .fetch (some 0) 0] live) firstStroke = some (stroke .fetch (some 0) 0)
    ∧ requestClass 0 (request 0 0) clean ArrayCells.reset = .clean
    ∧ requestClass 0 (request 0 0) (clean.set 0 .oneBit) ArrayCells.reset = .corrected 1
    ∧ requestClass 0 (request 0 0) (clean.set 7 .moreBits) ArrayCells.reset = .uncorrectable := by decide
theorem test_meets_canonical : MemoryCanonical State.reset := reset_wf
theorem test_bankAccessComplete_scrub_corrects :
    ((after (.bankAccessComplete 0 (clean.set 3 .oneBit)) (accessing .scrub (withStrokes [stroke .scrub (some 0) 0] (running (fillEntry 0))))).array.disturbed) = [] := by decide
theorem test_bankAccessComplete_read_keeps :
    ((after (.bankAccessComplete 0 (clean.set 3 .oneBit)) (accessing .read live)).array.disturbed) = [(3, .oneBit)] := by decide

/-- Bank 0 refreshed for region 0 KEPT. -/
def kept (account : Int) : State := withBank .idle none [] account (withRegion .kept live)

theorem test_meets_tick : State.reset.refresh.banks[(0 : BankId)].timer = none ∧ (kept 7).refresh.banks[(0 : BankId)].timer.isSome = true
    ∧ (kept 7).refresh.banks[(0 : BankId)].account < 8 ∧ 8 ≤ (kept 8).refresh.banks[(0 : BankId)].account := by decide
theorem test_meets_breach : BankRefreshLegal (kept 8) 0 := by
  unfold BankRefreshLegal
  decide
/-- Bank 0 at +8 with the KEEP's regions 0 and 8. -/
def armingAtEight : State := withBank .idle none [] 8 arming
theorem test_meets_breach_arming : BankRefreshLegal armingAtEight 0 ∧ OrdersPlaced armingAtEight :=
  ⟨by unfold BankRefreshLegal; decide, test_meets_arming_placed⟩
theorem test_breach_drops_the_rest : (after (.tick { bank := 0, interval := 0 }) armingAtEight).regions[(0 : RegionId)].state = .lost
    ∧ (after (.tick { bank := 0, interval := 0 }) armingAtEight).regions[(8 : RegionId)].state = .dropped := by decide +kernel
theorem test_tick : (after (.tick { bank := 0, interval := 0 }) (kept 7)).refresh.banks[(0 : BankId)].account = 8
    ∧ (after (.tick { bank := 0, interval := 0 }) (kept 8)).regions[(0 : RegionId)].state = .lost := by decide
/-- Regions 0 and 1 of bank 0 KEPT while its k is still 1. -/
def keptTwo : State := setRegion 1 (Region.become .kept) (kept 8)
theorem test_meets_stale_tick : HandedK keptTwo 0 2 (handK 0 keptTwo).refresh.banks[(0 : BankId)] ∧ 2 ≠ keptTwo.refresh.banks[(0 : BankId)].k
    ∧ (kept 8).refresh.banks[(0 : BankId)].interval ≠ 1 := by
  unfold HandedK
  decide
theorem test_stale_tick : after (.tick { bank := 0, interval := 0 }) (handK 0 keptTwo) = handK 0 keptTwo
    ∧ (after (.tick { bank := 0, interval := 1 }) (handK 0 keptTwo)).refresh.breaches = 1 := by decide
theorem test_meets_sample : State.reset.refresh.sampleTimer = true ∧ State.reset.refresh.tempClass = .normal ∧ TempClass.normal ≠ .hot := by decide
theorem test_sampleTimerExpiry : (after (.sampleTimerExpiry .hot) live).port.alertPending = true
    ∧ after (.sampleTimerExpiry .normal) live = live := by decide

/-! ## Domains and array sleep -/

def requested (on : Bool) (s : State) : State :=
  { s with domains := { s.domains with requests := [{ domain := 0, on := on, order := { lane := 0, seq := 0 } }] } }
def powered (s : State) : State := { s with domains := { s.domains with states := s.domains.states.set 0 .on } }

theorem test_meets_switchTake : (serving .rising false live).domains.serving ≠ none ∧ live.domains.requests = []
    ∧ (requested true live).domains.requests = { domain := 0, on := true, order := { lane := 0, seq := 0 } } :: []
    ∧ (requested true live).domains.serving = none ∧ live.domains.states[(0 : DomainId)] ≠ .on
    ∧ (powered live).domains.states[(0 : DomainId)] = .on ∧ (requested false live).domains.states[(0 : DomainId)] = .off
    ∧ (taken .running).engine.state = .running ∧ laneOrder (taken .running) 0 = some (order (fillEntry 0) .running)
    ∧ laneOrder live 0 = none := by decide
theorem test_switchTake : (after .switchTake (requested true live)).domains.states[(0 : DomainId)] = .rampingUp
    ∧ (after .switchTake (requested false (powered live))).domains.states[(0 : DomainId)] = .on := by decide
theorem test_meets_ramps : (serving .rising false live).domains.serving.map (·.phase) = some .rising
    ∧ (serving .rising false live).domains.rampTimer.isSome = true ∧ (serving .standingDown true live).domains.serving.map (·.lowerDown) = some true
    ∧ (serving .standingDown false live).domains.serving.map (·.upperDown) = some false
    ∧ (serving .falling true live).domains.serving.map (·.phase) = some .falling := by decide
/-- Domain 0 ramping up, all else after reset. -/
def rampingUp : State :=
  let s := serving .rising false live
  { s with domains := { s.domains with states := s.domains.states.set 0 .rampingUp } }
theorem test_meets_rampUp_law : RefreshLegal rampingUp := by
  refine ⟨fun b => ?_, fun r h => ?_, fun v h => ?_, fun h => ?_⟩
  · unfold BankRefreshLegal
    revert b
    decide
  · have hn : ∀ r, regionState rampingUp r = .off := by decide
    exact absurd (hn r) h
  · cases h
    decide
  · exact absurd h (by decide)
theorem test_rampUpComplete : (after .rampUpComplete rampingUp).regions[(0 : RegionId)].state = .dropped := by decide
theorem test_drainStart : (after .drainStart (serving .standingDown true (powered live))).domains.states[(0 : DomainId)] = .rampingDown
    ∧ (after .drainStart (serving .standingDown false (powered live))).domains.states[(0 : DomainId)] = .on := by decide +kernel
theorem test_meets_discard : (∃ x ∈ (loading .load (.hostRead firstStroke)).strokes.records, x.id = (stroke .load (some 0) 0).id)
    ∧ (∀ x ∈ (loading .load (.hostRead firstStroke)).strokes.records, x.id ≠ (stroke .load none 1).id) ∧ live.domains.serving = none := by decide
theorem test_rampDownComplete : (after .rampDownComplete (serving .falling true live)).domains.serving = none := by decide
theorem test_meets_sleep : State.reset.arrayMode.mode = .run ∧ State.reset.arrayMode.idleTimer.isSome = true ∧ wakeDemand State.reset = false
    ∧ State.reset.domains.serving = none ∧ (withMode .enteringSleep live).arrayMode.mode = .enteringSleep
    ∧ (∀ b : BankId, bankAwake live.banks[b] = false) ∧ bankAwake (kept 0).banks[(0 : BankId)] = true
    ∧ (withMode .asleep live).arrayMode.idleTimer = none := by decide
/-- The same with both banks ASLEEP and the wake timer running with a forced sleep. -/
def wakingUpDown (s : State) : State :=
  { setBank 1 { Bank.reset with state := .asleep } (setBank 0 { Bank.reset with state := .asleep, standDown := true } s) with
    arrayMode := { mode := .waking, idleTimer := none, wakeTimer := some 150, forcedSleep := true } }
/-- Domain 0 stands down, its lower bank IDLE and reported, its upper bank refreshing. -/
def standingDown : State :=
  setBank 1 { Bank.reset with state := .refreshing, standDown := true } (setBank 0 { Bank.reset with state := .idle, standDown := true }
    { live with domains := { live.domains with
        serving := some { domain := 0, on := false, owner := none, phase := .standingDown, lowerDown := true, upperDown := false } } })
theorem test_meets_standDown : StandDownReported standingDown ∧ StandDownReported (wakingUpDown standingDown) := by
  have h : StandDownReported standingDown := fun v hv _ => by
    obtain rfl := Option.some.inj hv
    exact ⟨by decide, by decide⟩
  exact ⟨h, fun v hv _ => by
    obtain rfl := Option.some.inj hv
    exact ⟨by decide, by decide⟩⟩
theorem test_pinReset_standing_down : (after .pinReset standingDown).arrayMode.mode = .enteringSleep
    ∧ (after .pinReset standingDown).banks[(0 : BankId)].state = .asleep := by decide
theorem test_idleTimerExpiry : (after .idleTimerExpiry State.reset).arrayMode.mode = .asleep := by decide
theorem test_sleepEntryComplete : (after .sleepEntryComplete (withMode .enteringSleep live)).arrayMode.mode = .asleep := by decide
/-- WAKING with the wake timer running. -/
def wakingUp (forced : Bool) (s : State) : State :=
  { s with arrayMode := { mode := .waking, idleTimer := none, wakeTimer := some 150, forcedSleep := forced } }
theorem test_meets_wake : (wakingUp true live).arrayMode.wakeTimer.isSome = true ∧ (wakingUp false live).arrayMode.forcedSleep = false
    ∧ wakeDemand (wakingUp true live) = false ∧ (withMode .waking live).arrayMode.wakeTimer = none := by decide
theorem test_meets_wake_holds : SleepHolds (wakingUp true live) := fun _ => by decide
theorem test_wakeTimerExpiry : (after .wakeTimerExpiry (wakingUp false live)).arrayMode.mode = .run
    ∧ (after .wakeTimerExpiry (wakingUp true live)).arrayMode.mode = .asleep := by decide +kernel
theorem test_meets_no_move : tableView live = tableView live := rfl

/-! ## Invariants: each holds at some state that steps to a next state -/

theorem test_meets_invariants : MemoryCanonical State.reset ∧ HeaderFlagAgrees State.reset ∧ CountsAgree State.reset
    ∧ CancelListLegal State.reset ∧ FlightCapped State.reset ∧ step State.reset = .next State.reset := by
  refine ⟨reset_wf, ?_, ?_, ?_, ?_, rfl⟩
  · unfold HeaderFlagAgrees
    decide
  · unfold CountsAgree
    decide
  · unfold CancelListLegal
    decide
  · unfold FlightCapped
    decide
theorem test_meets_timers : TimersLegal State.reset := by
  unfold TimersLegal
  decide

/-- A FILL of the 64 bytes after those of `fillEntry`, in lane 1. -/
def nextEntry : EntryWords := entry 0x01000104 1 0 64 64 0
def nextWrites : Footprint := { intervals := [{ base := 64, length := 64, write := true }], regions := [0], whole := false }
/-- Two FILLs at work, one in lane 0 and one in lane 1. -/
def twoAtWork : State := hold 1 1 (order nextEntry .stopping) (some nextWrites) (hold 0 0 (order (fillEntry 0) .running) (some writes) live)

theorem two_footprints : footprintOf (fillEntry 0) .fill = writes ∧ footprintOf nextEntry .fill = nextWrites := by decide +kernel
theorem two_entries (l : Lane) (e : TableEntry) (h : laneEntry twoAtWork l = some e) :
    (l = 0 ∧ e = entryAt 0 (some writes) none) ∨ (l = 1 ∧ e = entryAt 1 (some nextWrites) none) := by
  have h0 : laneEntry twoAtWork 0 = some (entryAt 0 (some writes) none) := rfl
  have h1 : laneEntry twoAtWork 1 = some (entryAt 1 (some nextWrites) none) := rfl
  have hn : ∀ l : Lane, l ≠ 0 → l ≠ 1 → laneEntry twoAtWork l = none := by decide
  by_cases hl : l = 0
  · exact .inl ⟨hl, Option.some.inj ((hl ▸ h).symm.trans h0)⟩
  · by_cases hm : l = 1
    · exact .inr ⟨hm, Option.some.inj ((hm ▸ h).symm.trans h1)⟩
    · rw [hn l hl hm] at h
      cases h
theorem test_meets_interlock : InterlockHolds twoAtWork := by
  refine ⟨fun l e o f h ho hf => ?_, fun l e o h => ?_, fun l m d e x y f g hlm hd he hf hg => ?_⟩
  · rcases two_entries l e h with ⟨_, rfl⟩ | ⟨_, rfl⟩ <;> cases hf <;> cases ho
    · exact ⟨.fill, rfl, two_footprints.1.symm⟩
    · exact ⟨.fill, rfl, two_footprints.2.symm⟩
  · rcases two_entries l e h.1 with ⟨_, rfl⟩ | ⟨_, rfl⟩ <;> exact nofun
  · rcases two_entries l d hd.1 with ⟨rfl, rfl⟩ | ⟨rfl, rfl⟩ <;> rcases two_entries m e he.1 with ⟨rfl, rfl⟩ | ⟨rfl, rfl⟩ <;>
      cases hf <;> cases hg <;> first | exact absurd rfl hlm | decide
theorem test_meets_interlock_pair : laneOrder twoAtWork 0 = some (order (fillEntry 0) .running)
    ∧ laneOrder twoAtWork 1 = some (order nextEntry .stopping) := by decide
/-- One FILL at work keeps both premises of the interlock's law. -/
def oneAtWork : State := hold 0 0 (order (fillEntry 0) .running) (some writes) live
theorem test_meets_interlock_step : OrdersPlaced oneAtWork ∧ InterlockHolds oneAtWork := by
  have only : ∀ l e, laneEntry oneAtWork l = some e → l = 0 ∧ e = entryAt 0 (some writes) none := fun l e h => by
    have hn : ∀ l : Lane, l ≠ 0 → laneEntry oneAtWork l = none := by decide
    by_cases hl : l = 0
    · exact ⟨hl, Option.some.inj ((hl ▸ h).symm.trans rfl)⟩
    · rw [hn l hl] at h
      cases h
  refine ⟨placed_alone oneAtWork (order (fillEntry 0) .running) (entryAt 0 (some writes) none) (by decide) (by decide) (by decide)
    (by decide) (by decide) (by decide) (by decide), fun l e o f h ho hf => ?_, fun l e o h => ?_, fun l m d e x y f g hlm hd he _ _ => ?_⟩
  · obtain ⟨_, rfl⟩ := only l e h
    cases hf
    cases ho
    exact ⟨.fill, rfl, two_footprints.1.symm⟩
  · obtain ⟨_, rfl⟩ := only l e h.1
    exact nofun
  · exact absurd ((only l d hd.1).1.trans (only m e he.1).1.symm) hlm

/-- READING with a read outstanding and `n` page records. -/
theorem legal_reading (step : ReadStep) (n : Nat) (h : n ≤ 4) (hs : step = .next ∨ step = .header → n ≤ 3) :
    IntakeLegal (reading step (withPages n live)) := by
  have hl : (reading step (withPages n live)).intake.records.length = n := List.length_replicate
  have only : ∀ r, Requested (reading step (withPages n live)) r → r = .intakeRead step := fun r h => by
    rcases h with h | ⟨a, h, rfl⟩
    · cases h
    · cases h
      rfl
  refine ⟨Nat.le_refl 1, fun h => ?_, fun _ _ => rfl, fun _ => rfl, nofun, Nat.le_trans (Nat.le_of_eq hl) h,
    fun h => Nat.le_trans (Nat.le_of_eq hl) (hs ?_), nofun⟩
  · cases only _ h
  · rcases h with h | h <;> cases only _ h <;> simp
theorem test_meets_intakeLegal : IntakeLegal (reading .entry (withPages 4 live)) ∧ IntakeLegal (reading .header (withPages 3 live)) :=
  ⟨legal_reading .entry 4 (by decide) (by simp), legal_reading .header 3 (by decide) (by simp)⟩
theorem test_fourth_page_record : (after (.firstSeqReadComplete 7 0) (reading .header (withPages 3 live))).intake.records.length = 4
    ∧ readRegister (reading .entry (withPages 4 live)) 0x10#5 .word = 0x08000022#32 := by decide
theorem test_meets_poolAgrees : PoolAgrees (taken .running) ∧ PoolAgrees (reading .entry (withPages 4 live)) := by
  unfold PoolAgrees
  decide

end Sys2Proof.Tests
end

section
/-! PROOFS. Admission: the static checks read as numbers (R72), and when two footprints conflict (R76). -/

namespace Sys2Proof

/-! ## KIND as a number (R5) -/

/-- The KIND number of an order kind (R5). -/
def OrderKind.code : OrderKind → Nat
  | .load => 1
  | .fetch => 2
  | .copy => 3
  | .fill => 4
  | .scrub => 5
  | .retain => 6
  | .power => 7
  | .mark => 8

theorem OrderKind.eq_load_iff (k : OrderKind) : k = .load ↔ k.code = 1 := by cases k <;> decide
theorem OrderKind.eq_fetch_iff (k : OrderKind) : k = .fetch ↔ k.code = 2 := by cases k <;> decide
theorem OrderKind.eq_copy_iff (k : OrderKind) : k = .copy ↔ k.code = 3 := by cases k <;> decide
theorem OrderKind.eq_retain_iff (k : OrderKind) : k = .retain ↔ k.code = 6 := by cases k <;> decide
theorem OrderKind.eq_power_iff (k : OrderKind) : k = .power ↔ k.code = 7 := by cases k <;> decide

theorem OrderKind.code_range (k : OrderKind) : 1 ≤ k.code ∧ k.code ≤ 8 := by cases k <;> decide

theorem OrderKind.isData_iff_code (k : OrderKind) : k.isData = true ↔ 1 ≤ k.code ∧ k.code ≤ 5 := by cases k <;> decide

/-- An entry's KIND is given by bits 7:0 of word 0, as the model reads them and as a number. -/
theorem EntryWords.kind_cases (e : EntryWords) :
    (e.kind = none ∧ (e.word0.toNat % 256 = 0 ∨ 8 < e.word0.toNat % 256))
      ∨ ∃ k, e.kind = some k ∧ e.word0.toNat % 256 = k.code := by
  have hbits : (e.word0.extractLsb' 0 8).toNat = e.word0.toNat % 256 := by simp
  unfold EntryWords.kind
  rw [hbits]
  split
  case h_9 =>
    simp only [imp_false] at *
    exact .inl ⟨trivial, by omega⟩
  all_goals exact .inr ⟨_, rfl, ‹_›⟩

end Sys2Proof

namespace Sys2Proof.Machine

/-! ## Bit fields as numbers -/

theorem extract_eq_zero_iff (w : Word) (start len : Nat) :
    w.extractLsb' start len = 0 ↔ w.toNat / 2 ^ start % 2 ^ len = 0 := by
  rw [← BitVec.toNat_inj, BitVec.extractLsb'_toNat, Nat.shiftRight_eq_div_pow]
  rfl

/-! ## Each static check on the fields as numbers (R72) -/

theorem badFlags_iff (e : EntryWords) : (e.flags != 0) = true ↔ e.word0.toNat / 2048 % 8192 ≠ 0 :=
  bne_iff_ne.trans (not_congr (extract_eq_zero_iff e.word0 11 13))

theorem misaligned_iff (e : EntryWords) (k : OrderKind) : misaligned e k = true ↔
    (1 ≤ k.code ∧ k.code ≤ 5)
      ∧ (e.word3.toNat % 64 ≠ 0 ∨ e.word4.toNat % 64 ≠ 0 ∨ (k.code = 3 ∧ e.word5.toNat % 64 ≠ 0)) := by
  simp only [misaligned, Bool.and_eq_true, Bool.or_eq_true, beq_iff_eq, bne_iff_ne, OrderKind.isData_iff_code, OrderKind.eq_copy_iff,
    or_assoc]
  rfl

theorem badLength_iff (e : EntryWords) (k : OrderKind) : badLength e k = true ↔
    (1 ≤ k.code ∧ k.code ≤ 5) ∧ (e.word4.toNat < 64 ∨ 16777216 < e.word4.toNat) := by
  simp only [badLength, Bool.and_eq_true, Bool.or_eq_true, decide_eq_true_eq, OrderKind.isData_iff_code]
  rfl

theorem outsideArray_iff (e : EntryWords) (k : OrderKind) : outsideArray e k = true ↔
    (1 ≤ k.code ∧ k.code ≤ 5)
      ∧ (268435456 < e.word3.toNat + e.word4.toNat ∨ (k.code = 3 ∧ 268435456 < e.word5.toNat + e.word4.toNat)) := by
  simp only [outsideArray, Bool.and_eq_true, Bool.or_eq_true, beq_iff_eq, decide_eq_true_eq, OrderKind.isData_iff_code,
    OrderKind.eq_copy_iff]
  rfl

theorem badHostRange_iff (e : EntryWords) (k : OrderKind) : badHostRange e k = true ↔
    (k.code = 1 ∨ k.code = 2) ∧ (e.word2.toNat % 8 ≠ 0 ∨ 4294967296 < e.word2.toNat + e.word4.toNat) := by
  simp only [badHostRange, Bool.and_eq_true, Bool.or_eq_true, beq_iff_eq, bne_iff_ne, decide_eq_true_eq, OrderKind.eq_load_iff,
    OrderKind.eq_fetch_iff]
  rfl

theorem badRetain_iff (e : EntryWords) (k : OrderKind) : badRetain e k = true ↔
    k.code = 6 ∧ (e.word5.toNat % 256 = 0 ∨ e.word5.toNat / 256 % 256 = 0 ∨ e.word5.toNat / 131072 ≠ 0) := by
  have hbank : e.bankMask = 0 ↔ e.word5.toNat / 1 % 256 = 0 := extract_eq_zero_iff e.word5 0 8
  have hsegment : e.segmentMask = 0 ↔ e.word5.toNat / 256 % 256 = 0 := extract_eq_zero_iff e.word5 8 8
  have hhigh : e.word5.extractLsb' 17 15 = 0 ↔ e.word5.toNat / 131072 = 0 :=
    (extract_eq_zero_iff e.word5 17 15).trans (by have := e.word5.isLt; omega)
  simp only [badRetain, Bool.and_eq_true, Bool.or_eq_true, beq_iff_eq, bne_iff_ne, ne_eq, OrderKind.eq_retain_iff,
    hbank, hsegment, hhigh, Nat.div_one, or_assoc]

theorem badPower_iff (e : EntryWords) (k : OrderKind) : badPower e k = true ↔
    k.code = 7 ∧ (e.word5.toNat / 4 % 64 ≠ 0 ∨ e.word5.toNat / 512 ≠ 0) := by
  have hlow : e.word5.extractLsb' 2 6 = 0 ↔ e.word5.toNat / 4 % 64 = 0 := extract_eq_zero_iff e.word5 2 6
  have hhigh : e.word5.extractLsb' 9 23 = 0 ↔ e.word5.toNat / 512 = 0 :=
    (extract_eq_zero_iff e.word5 9 23).trans (by have := e.word5.isLt; omega)
  simp only [badPower, Bool.and_eq_true, Bool.or_eq_true, beq_iff_eq, bne_iff_ne, ne_eq, OrderKind.eq_power_iff, hlow,
    hhigh]

/-! ## Intervals that share an address (spec/00_scope.md section 5) -/

/-- The larger of the two bases is the shared address. -/
theorem overlap_iff_shared_address (a alen b blen : Nat) :
    overlap a alen b blen = true ↔ ∃ x, a ≤ x ∧ x < a + alen ∧ b ≤ x ∧ x < b + blen := by
  simp only [overlap, Bool.and_eq_true, decide_eq_true_eq]
  constructor
  · intro h
    exact ⟨max a b, by omega⟩
  · rintro ⟨x, h⟩
    omega

theorem overlap_iff_of_pos {a alen b blen : Nat} (ha : 0 < alen) (hb : 0 < blen) :
    overlap a alen b blen = true ↔ a < b + blen ∧ b < a + alen := by
  simp [overlap, ha, hb]

/-- Check 7 adds nothing on the length: it is made only after check 4 has passed, so the two ranges are not empty. -/
theorem copyOverlap_iff (e : EntryWords) (k : OrderKind) (hlen : badLength e k = false) : copyOverlap e k = true ↔
    k.code = 3 ∧ e.word3.toNat < e.word5.toNat + e.word4.toNat ∧ e.word5.toNat < e.word3.toNat + e.word4.toNat := by
  have hpos : k.code = 3 → 0 < e.word4.toNat := by
    have := mt (badLength_iff e k).mpr (Bool.eq_false_iff.mp hlen)
    omega
  rw [copyOverlap, Bool.and_eq_true, beq_iff_eq, OrderKind.eq_copy_iff]
  exact and_congr_right fun hk => overlap_iff_of_pos (hpos hk) (hpos hk)

/-- Settles O31: the two chains of tests go side by side, each check by its own lemma. -/
theorem staticChecksGiveTheReason : Obligations.StaticChecksGiveTheReason := by
  intro e
  dsimp only
  unfold staticCheck
  rcases EntryWords.kind_cases e with ⟨hk, hkind⟩ | ⟨k, hk, hkind⟩
  · rw [hk, if_pos hkind]
  · have hvalid : ¬(k.code = 0 ∨ 8 < k.code) := by
      have := k.code_range
      omega
    rw [hk, hkind, if_neg hvalid]
    refine ite_congr (propext (badFlags_iff e)) (fun _ => rfl) fun _ => ?_
    refine ite_congr (propext (misaligned_iff e k)) (fun _ => rfl) fun _ => ?_
    refine ite_congr (propext (badLength_iff e k)) (fun _ => rfl) fun hlen => ?_
    have hpassed : badLength e k = false := Bool.eq_false_iff.mpr (mt (badLength_iff e k).mp hlen)
    refine ite_congr (propext (outsideArray_iff e k)) (fun _ => rfl) fun _ => ?_
    refine ite_congr (propext (badHostRange_iff e k)) (fun _ => rfl) fun _ => ?_
    refine ite_congr (propext (copyOverlap_iff e k hpassed)) (fun _ => rfl) fun _ => ?_
    refine ite_congr (propext (badRetain_iff e k)) (fun _ => rfl) fun _ => ?_
    exact ite_congr (propext (badPower_iff e k)) (fun _ => rfl) fun _ => rfl

/-! ## Conflicts of footprints (R76) -/

theorem intervalConflict_iff (x y : ArrayInterval) : intervalConflict x y = true ↔
    (∃ a, x.base ≤ a ∧ a < x.base + x.length ∧ y.base ≤ a ∧ a < y.base + y.length) ∧ (x.write = true ∨ y.write = true) := by
  simp only [intervalConflict, Bool.and_eq_true, Bool.or_eq_true, overlap_iff_shared_address]

theorem conflicts_iff_intervals {f g : Footprint} (hf : f.whole = false) (hg : g.whole = false) : f.conflicts g = true ↔
    ∃ x ∈ f.intervals, ∃ y ∈ g.intervals, intervalConflict x y = true := by
  simp [Footprint.conflicts, hf, hg]

theorem conflicts_iff_regions {f g : Footprint} (h : f.whole = true ∨ g.whole = true) : f.conflicts g = true ↔
    ∃ r, r ∈ f.regions ∧ r ∈ g.regions := by
  rw [Footprint.conflicts, if_pos (by simpa using h)]
  simp

theorem footprintOf_whole_iff (e : EntryWords) (k : OrderKind) : (footprintOf e k).whole = true ↔ k = .retain ∨ k = .power := by
  cases k <;> simp [footprintOf, dataFootprint]

/-- Footprints of intervals that are all marked read do not conflict. -/
theorem conflicts_false_of_reads {f g : Footprint} (hf : f.whole = false) (hg : g.whole = false)
    (hfr : ∀ x ∈ f.intervals, x.write = false) (hgr : ∀ y ∈ g.intervals, y.write = false) : f.conflicts g = false := by
  rw [Bool.eq_false_iff, ne_eq, conflicts_iff_intervals hf hg]
  rintro ⟨x, hx, y, hy, hxy⟩
  obtain ⟨-, hw⟩ := (intervalConflict_iff x y).mp hxy
  simp [hfr x hx, hgr y hy] at hw

theorem footprintOf_fetch_reads (e : EntryWords) : ∀ x ∈ (footprintOf e .fetch).intervals, x.write = false := by
  simp [footprintOf, dataFootprint]

/-- A footprint with no interval and no region conflicts with none, whole or not. -/
theorem conflicts_false_of_empty {f : Footprint} (g : Footprint) (hi : f.intervals = []) (hr : f.regions = []) :
    f.conflicts g = false := by
  unfold Footprint.conflicts
  split
  · simp [hr]
  · simp [hi]

theorem footprintOf_mark_conflicts (e : EntryWords) (g : Footprint) : (footprintOf e .mark).conflicts g = false :=
  conflicts_false_of_empty g rfl rfl

/-- An entry whose footprint is absent takes no part in the interlock (R77). -/
theorem holdsBack_of_no_footprint {s : State} {m : Lane} {e : TableEntry} (l : Lane) (x : PoolOrder) (f : Footprint)
    (he : laneEntry s m = some e) (hn : e.footprint = none) : holdsBack s l x f m = false := by
  unfold holdsBack
  rw [he]
  cases laneOrder s m <;> simp [hn]

/-- Settles O32, from the rule of each form of footprint. -/
theorem footprintsConflictWhereOneWrites : Obligations.FootprintsConflictWhereOneWrites := by
  refine ⟨fun f g hf hg => ?_, fun f g h => conflicts_iff_regions h, footprintOf_whole_iff, fun e d => ?_, fun e g => ?_,
    fun s l x f m e he hn => holdsBack_of_no_footprint l x f he hn⟩
  · simp only [conflicts_iff_intervals hf hg, intervalConflict_iff]
  · exact conflicts_false_of_reads rfl rfl (footprintOf_fetch_reads e) (footprintOf_fetch_reads d)
  · exact ⟨footprintOf_mark_conflicts e g, (conflicts_comm g (footprintOf e .mark)).trans (footprintOf_mark_conflicts e g)⟩

end Sys2Proof.Machine
end


section
/-! PROOFS. Strokes: the array address map read as numbers, its inverse on strokes, and the 64 bytes of a stroke (R90). -/

namespace Sys2Proof.Machine

/-! ## Regions, banks and domains as numbers (R150, R166) -/

theorem regionDomain_val (r : RegionId) : (regionDomain r).val = r.val / 16 :=
  Nat.div_div_eq_div_mul r.val 8 2

theorem lowerBank_val (d : DomainId) : (lowerBank d).val = 2 * d.val := Nat.mul_comm d.val 2

theorem upperBank_val (d : DomainId) : (upperBank d).val = 2 * d.val + 1 :=
  congrArg (· + 1) (Nat.mul_comm d.val 2)

/-! ## The fields of an array address as numbers (R90) -/

theorem addrBank_val (a : Nat) : (addrBank a).val = a / 2048 % 8 := rfl

theorem addrColumn_toNat (a : Nat) : (addrColumn a).toNat = a % 2048 / 64 := by
  rw [addrColumn, BitVec.toNat_ofNat]
  omega

theorem addrRow_toNat {a : Nat} (ha : a < Config.arrayBytes) : (addrRow a).toNat = a / 16384 := by
  simp only [Config.arrayBytes] at ha
  rw [addrRow, BitVec.toNat_ofNat]
  omega

theorem addrSegment_val {a : Nat} (ha : a < Config.arrayBytes) : (addrSegment a).val = a / 33554432 := by
  simp only [Config.arrayBytes] at ha
  exact Nat.mod_eq_of_lt (by omega)

/-- A segment is 2,048 rows of a bank. -/
theorem addrSegment_val_eq_row {a : Nat} (ha : a < Config.arrayBytes) : (addrSegment a).val = (addrRow a).toNat / 2048 := by
  rw [addrSegment_val ha, addrRow_toNat ha, Nat.div_div_eq_div_mul]

/-- The place of an address leads back to the start of its stroke. -/
theorem placeAddress_addr {a : Nat} (ha : a < Config.arrayBytes) :
    placeAddress (addrBank a) (addrRow a) (addrColumn a) = a - a % 64 := by
  rw [placeAddress, addrBank_val, addrRow_toNat ha, addrColumn_toNat]
  omega

/-! ## The bytes of one stroke

Every field of the map is a function of the stroke's number, `a / 64`. -/

theorem addrBank_eq_of_stroke {a c : Nat} (h : a / 64 = c / 64) : addrBank a = addrBank c := by
  have hq : a / 2048 = c / 2048 := by omega
  rw [addrBank, addrBank, hq]

theorem addrRow_eq_of_stroke {a c : Nat} (h : a / 64 = c / 64) : addrRow a = addrRow c := by
  have hq : a / 16384 = c / 16384 := by omega
  rw [addrRow, addrRow, hq]

theorem addrColumn_eq_of_stroke {a c : Nat} (h : a / 64 = c / 64) : addrColumn a = addrColumn c := by
  have hq : a % 2048 / 64 = c % 2048 / 64 := by omega
  rw [addrColumn, addrColumn, hq]

theorem addrSegment_eq_of_stroke {a c : Nat} (h : a / 64 = c / 64) : addrSegment a = addrSegment c := by
  have hq : a / 33554432 = c / 33554432 := by omega
  rw [addrSegment, addrSegment, hq]

theorem addrRegion_eq_of_stroke {a c : Nat} (h : a / 64 = c / 64) : addrRegion a = addrRegion c := by
  rw [addrRegion, addrRegion, addrBank_eq_of_stroke h, addrSegment_eq_of_stroke h]

/-- Settles O37: each field by its number, and the bytes of a stroke by the stroke they share. -/
theorem addressMapPlacesEveryByte : Obligations.AddressMapPlacesEveryByte := by
  refine ⟨fun b g r d => ⟨rfl, rfl, rfl, regionDomain_val r, lowerBank_val d, upperBank_val d⟩, fun a ha =>
    ⟨addrBank_val a, addrRow_toNat ha, addrColumn_toNat a, addrSegment_val ha, addrSegment_val_eq_row ha, rfl,
      placeAddress_addr ha, fun j hj ha64 => ?_⟩⟩
  have hstroke : (a + j) / 64 = a / 64 := by omega
  exact ⟨addrBank_eq_of_stroke hstroke, addrRow_eq_of_stroke hstroke, addrColumn_eq_of_stroke hstroke,
    addrRegion_eq_of_stroke hstroke⟩

end Sys2Proof.Machine
end


section
/-! PROOFS. Bank controllers: which waiting request is the earliest (R116), and what the arbiter decides in OPEN and IDLE at each level of the account (R119 to R121). -/

namespace Sys2Proof.Machine

open Sys2Proof.Safety

/-! ## Sequences (R6) -/

theorem seqBefore_irrefl (a : Word) : seqBefore a a = false := by simp [seqBefore]

/-- The two distances between unequal sequences add to 2^32, so at most one of them is below 2^31. -/
theorem seqBefore_asymm {a b : Word} (h : seqBefore a b = true) : seqBefore b a = false := by
  simp only [seqBefore, Bool.and_eq_true, decide_eq_true_eq, Bool.and_eq_false_iff, decide_eq_false_iff_not] at h ⊢
  bv_omega

theorem not_seqBefore_of_eq_or_before {a b : Word} (h : a = b ∨ seqBefore a b = true) : seqBefore b a = false := by
  rcases h with rfl | h
  · exact seqBefore_irrefl a
  · exact seqBefore_asymm h

/-! ## The earliest waiting request (R116) -/

/-- Of the earliest request so far and the next in join order, the one that stays: the next only if its sequence is earlier. -/
def sooner (m x : BankRequest) : BankRequest := if seqBefore x.seq m.seq then x else m

theorem earliestRequest_nil : earliestRequest [] = none := rfl

theorem earliestRequest_cons (r : BankRequest) (rest : List BankRequest) :
    earliestRequest (r :: rest) = some (rest.foldl sooner r) := rfl

theorem sooner_of_before {m x : BankRequest} (h : seqBefore x.seq m.seq = true) : sooner m x = x := if_pos h

theorem sooner_of_not_before {m x : BankRequest} (h : seqBefore x.seq m.seq = false) : sooner m x = m :=
  if_neg (by simp [h])

/-- A request that all that joined before it follow in sequence replaces the earliest of them. -/
theorem foldl_sooner_before {q : BankRequest} (l : List BankRequest) (m : BankRequest)
    (h : ∀ x ∈ m :: l, seqBefore q.seq x.seq = true) : sooner (l.foldl sooner m) q = q := by
  induction l generalizing m with
  | nil => exact sooner_of_before (h m List.mem_cons_self)
  | cons x l ih =>
    refine ih (sooner m x) fun y hy => ?_
    rcases List.mem_cons.mp hy with rfl | hy
    · unfold sooner
      split
      · exact h x (by simp)
      · exact h m (by simp)
    · exact h y (by simp [hy])

/-- A request that none that joined after it precedes in sequence stays the earliest. -/
theorem foldl_sooner_after {q : BankRequest} (l : List BankRequest) (h : ∀ x ∈ l, seqBefore x.seq q.seq = false) :
    l.foldl sooner q = q := by
  induction l with
  | nil => rfl
  | cons x l ih =>
    rw [List.foldl_cons, sooner_of_not_before (h x List.mem_cons_self)]
    exact ih fun y hy => h y (List.mem_cons_of_mem x hy)

/-- The request of the earliest sequence, the first joined among equals, is the one picked. -/
theorem earliestRequest_append_cons {earlier later : List BankRequest} {q : BankRequest}
    (hearlier : ∀ x ∈ earlier, seqBefore q.seq x.seq = true)
    (hlater : ∀ x ∈ later, q.seq = x.seq ∨ seqBefore q.seq x.seq = true) :
    earliestRequest (earlier ++ q :: later) = some q := by
  have hafter : later.foldl sooner q = q := foldl_sooner_after later fun x hx => not_seqBefore_of_eq_or_before (hlater x hx)
  cases earlier with
  | nil => rw [List.nil_append, earliestRequest_cons, hafter]
  | cons m rest =>
    rw [List.cons_append, earliestRequest_cons, List.foldl_append, List.foldl_cons, foldl_sooner_before rest m hearlier, hafter]

/-! ## The indication as numbers (R117) -/

theorem refreshLevel_of_ceiling {r : RefreshBank} (h : 8 ≤ r.account) : refreshLevel r = .urgent := if_pos h

theorem refreshLevel_of_due {r : RefreshBank} (h8 : r.account < 8) (h4 : 4 ≤ r.account) : refreshLevel r = .due :=
  (if_neg (Int.not_le.mpr h8)).trans (if_pos h4)

theorem refreshLevel_of_below {r : RefreshBank} (h4 : r.account < 4) : refreshLevel r = .noneDue :=
  (if_neg (Int.not_le.mpr (Int.lt_trans h4 (by decide)))).trans (if_neg (Int.not_le.mpr h4))

theorem refreshLevel_ne_urgent {r : RefreshBank} (h8 : r.account < 8) : refreshLevel r ≠ .urgent := by
  rcases Int.lt_or_le r.account 4 with h4 | h4
  · simp [refreshLevel_of_below h4]
  · simp [refreshLevel_of_due h8 h4]

theorem pullInAllowed_iff (r : RefreshBank) : pullInAllowed r = true ↔ 0 < r.k ∧ -8 < r.account := by
  rw [pullInAllowed, Bool.and_eq_true, decide_eq_true_eq, decide_eq_true_eq]
  rfl

/-! ## The row group of a refresh (R115) -/

theorem RegionState.retained_iff (st : RegionState) : st.retained = true ↔ st = .kept ∨ st = .arming := by
  cases st <;> decide

theorem groupDue_inRetainedSegment (s : State) (b : BankId) : InRetainedSegment s b (groupDue s b) :=
  fun _ hg => (RegionState.retained_iff _).mp (nextGroup_retained hg)

/-! ## The decision in OPEN (R119, R120) -/

/-- The waiting requests for the open row. -/
def rowHits (k : Bank) : List BankRequest := k.requests.filter fun r => some r.row == k.openRow

/-- Some waiting request is for another row than the open one. -/
def otherRowWaits (k : Bank) : Bool := k.requests.any fun r => some r.row != k.openRow

theorem decideOpen_urgent (k : Bank) : decideOpen .urgent k = startClose k := rfl

theorem decideOpen_hit {level : RefreshLevel} {k : Bank} {q : BankRequest} (hlevel : level ≠ .urgent)
    (hq : earliestRequest (rowHits k) = some q) (hstreak : k.streak < 16 ∨ otherRowWaits k = false) :
    decideOpen level k = startAccess q k := by
  have hserve : (decide (k.streak < Config.streakLimit) || !otherRowWaits k) = true := by
    rwa [Bool.or_eq_true, decide_eq_true_eq, Bool.not_eq_true']
  simp only [rowHits, otherRowWaits] at hq hserve
  simp only [decideOpen, if_neg hlevel, hq, hserve, if_true]

theorem decideOpen_streak_over {level : RefreshLevel} {k : Bank} (hstreak : 16 ≤ k.streak) (hother : otherRowWaits k = true) :
    decideOpen level k = startClose k := by
  have hyield : (decide (k.streak < Config.streakLimit) || !otherRowWaits k) = false := by
    rw [hother, Bool.not_true, Bool.or_false]
    exact decide_eq_false (Nat.not_lt.mpr hstreak)
  have hwaits : k.requests.isEmpty = false := by
    cases hr : k.requests with
    | nil => simp [otherRowWaits, hr] at hother
    | cons => rfl
  simp only [otherRowWaits] at hyield
  unfold decideOpen
  split
  · rfl
  · dsimp only
    split
    · simp only [hyield, Bool.false_eq_true, if_false]
    · simp only [hwaits, Bool.not_false, Bool.true_or, if_true]

theorem decideOpen_no_hit {level : RefreshLevel} {k : Bank} (hlevel : level ≠ .urgent) (hhits : rowHits k = []) :
    decideOpen level k = if k.requests ≠ [] ∨ level = .due then startClose k else k := by
  simp only [rowHits] at hhits
  simp [decideOpen, hlevel, hhits, earliestRequest_nil]

theorem rowHits_of_openRow {k : Bank} {row : BitVec 14} (hrow : k.openRow = some row) :
    rowHits k = k.requests.filter fun r => r.row == row := by
  simp [rowHits, hrow]

theorem rowHits_of_no_request {k : Bank} (hreq : k.requests = []) : rowHits k = [] := by
  rw [rowHits, hreq, List.filter_nil]

theorem rowHits_eq_nil_iff {k : Bank} {row : BitVec 14} (hrow : k.openRow = some row) :
    rowHits k = [] ↔ ∀ x ∈ k.requests, x.row ≠ row := by
  simp [rowHits, hrow]

theorem otherRowWaits_iff {k : Bank} {row : BitVec 14} (hrow : k.openRow = some row) :
    otherRowWaits k = true ↔ ∃ x ∈ k.requests, x.row ≠ row := by
  simp [otherRowWaits, hrow]

/-- The earliest of the hits, found in the whole pending set. -/
theorem earliestRequest_rowHits {k : Bank} {row : BitVec 14} {earlier later : List BankRequest} {q : BankRequest}
    (hrow : k.openRow = some row) (hreq : k.requests = earlier ++ q :: later) (hq : q.row = row)
    (hearlier : ∀ x ∈ earlier, x.row = row → seqBefore q.seq x.seq = true)
    (hlater : ∀ x ∈ later, x.row = row → q.seq = x.seq ∨ seqBefore q.seq x.seq = true) :
    earliestRequest (rowHits k) = some q := by
  have hhit : (q.row == row) = true := beq_iff_eq.mpr hq
  rw [rowHits_of_openRow hrow, hreq, List.filter_append, List.filter_cons, if_pos hhit]
  refine earliestRequest_append_cons (fun x hx => ?_) fun x hx => ?_
  · obtain ⟨hmem, hxrow⟩ := List.mem_filter.mp hx
    exact hearlier x hmem (beq_iff_eq.mp hxrow)
  · obtain ⟨hmem, hxrow⟩ := List.mem_filter.mp hx
    exact hlater x hmem (beq_iff_eq.mp hxrow)

/-- The request served leaves the pending set from its own place. -/
theorem startAccess_of_requests {k : Bank} {earlier later : List BankRequest} {q : BankRequest}
    (hreq : k.requests = earlier ++ q :: later) (hq : q ∉ earlier) :
    startAccess q k = { k with state := .accessing, inHand := some q, requests := earlier ++ later, streak := min (k.streak + 1) 16 } := by
  rw [startAccess, hreq, List.erase_append_right _ hq, List.erase_cons_head]
  rfl

/-! ## The decision in IDLE (R119, R121) -/

theorem decideIdle_refresh {level : RefreshLevel} (hlevel : level = .urgent ∨ level = .due) (pullIn : Bool) (g : Option RowGroup)
    (k : Bank) : decideIdle level pullIn g k = startRefresh g k := by
  rcases hlevel with rfl | rfl <;> rfl

theorem decideIdle_open (pullIn : Bool) (g : Option RowGroup) {k : Bank} {q : BankRequest} (hq : earliestRequest k.requests = some q) :
    decideIdle .noneDue pullIn g k = startOpen q.row k := by
  simp [decideIdle, hq]

theorem decideIdle_no_request (pullIn : Bool) (g : Option RowGroup) {k : Bank} (hreq : k.requests = []) :
    decideIdle .noneDue pullIn g k = if pullIn then startRefresh g k else k := by
  simp [decideIdle, hreq, earliestRequest_nil]

/-! ## The decision as a command (R118) -/

theorem setBank_self (s : State) (b : BankId) : setBank b s.banks[b] s = s := by
  simp [setBank]

section Decision

variable {s : State} {b : BankId} (hhold : s.banks[b].sleepHold = false) (hstand : s.banks[b].standDown = false)
include hhold hstand

theorem exec_decision_opened (hstate : s.banks[b].state = .opened) :
    exec (.bankArbiterDecision b) s = .next (setBank b (decideOpen (refreshLevel s.refresh.banks[b]) s.banks[b]) s) := by
  have hdecide : decide1 (indication s b) (groupDue s b) s.banks[b] = decideOpen (refreshLevel s.refresh.banks[b]) s.banks[b] := by
    simp only [decide1, hhold, hstand, hstate, Bool.or_self, Bool.false_eq_true, if_false, indication]
  rw [← hdecide]
  rfl

theorem exec_decision_idle (hstate : s.banks[b].state = .idle) :
    exec (.bankArbiterDecision b) s = .next (setBank b
      (decideIdle (refreshLevel s.refresh.banks[b]) (pullInAllowed s.refresh.banks[b]) (groupDue s b) s.banks[b]) s) := by
  have hdecide : decide1 (indication s b) (groupDue s b) s.banks[b]
      = decideIdle (refreshLevel s.refresh.banks[b]) (pullInAllowed s.refresh.banks[b]) (groupDue s b) s.banks[b] := by
    simp only [decide1, hhold, hstand, hstate, Bool.or_self, Bool.false_eq_true, if_false, indication]
  rw [← hdecide]
  rfl

end Decision

/-- A refresh that the decision starts takes a group of a retained segment, and nothing else changes. -/
theorem exists_group_of_refresh {s : State} {b : BankId}
    (h : exec (.bankArbiterDecision b) s = .next (setBank b (startRefresh (groupDue s b) s.banks[b]) s)) :
    ∃ group, InRetainedSegment s b group ∧ exec (.bankArbiterDecision b) s =
      .next { s with banks := s.banks.set b { s.banks[b] with state := .refreshing, rowGroup := group } } :=
  ⟨groupDue s b, groupDue_inRetainedSegment s b, h⟩

/-- Settles O43: at +8 the level is URGENT, and in OPEN and in IDLE that alone decides. -/
theorem urgentServesRefreshFirst : Obligations.UrgentServesRefreshFirst := by
  intro s b hhold hstand haccount
  have hlevel : refreshLevel s.refresh.banks[b] = .urgent := refreshLevel_of_ceiling (Int.le_of_eq haccount.symm)
  refine ⟨fun hopen => ?_, fun hidle => exists_group_of_refresh ?_⟩
  · rw [exec_decision_opened hhold hstand hopen, hlevel, decideOpen_urgent]
    rfl
  · rw [exec_decision_idle hhold hstand hidle, decideIdle_refresh (.inl hlevel)]

/-- Settles O44: the earliest hit is served while the streak or the lack of another row allows; without a hit the bank closes or stays. -/
theorem openBankPrefersRowHits : Obligations.OpenBankPrefersRowHits := by
  intro s b row hhold hstand hopen hrow haccount
  have hlevel := refreshLevel_ne_urgent haccount
  rw [exec_decision_opened hhold hstand hopen]
  refine ⟨fun earlier q later hreq hq hearlier hlater hstreak => ?_, fun hyield hwant => ?_, fun hnone hbelow => ?_⟩
  · have hfirst : q ∉ earlier := fun hmem => by simpa [seqBefore_irrefl] using hearlier q hmem hq
    have hserve : s.banks[b].streak < 16 ∨ otherRowWaits s.banks[b] = false :=
      hstreak.imp_right fun hall => Bool.eq_false_iff.mpr fun hother => by
        obtain ⟨x, hx, hne⟩ := (otherRowWaits_iff hrow).mp hother
        exact hne (hall x hx)
    rw [decideOpen_hit hlevel (earliestRequest_rowHits hrow hreq hq hearlier hlater) hserve, startAccess_of_requests hreq hfirst]
    rfl
  · have hclose : decideOpen (refreshLevel s.refresh.banks[b]) s.banks[b] = startClose s.banks[b] := by
      rcases hyield with hmiss | ⟨hstreak, hother⟩
      · rw [decideOpen_no_hit hlevel ((rowHits_eq_nil_iff hrow).mpr hmiss),
          if_pos (hwant.imp_right (refreshLevel_of_due haccount))]
      · exact decideOpen_streak_over hstreak ((otherRowWaits_iff hrow).mpr hother)
    rw [hclose]
    rfl
  · have hrest : ¬(s.banks[b].requests ≠ [] ∨ refreshLevel s.refresh.banks[b] = .due) :=
      not_or.mpr ⟨fun hwaits => hwaits hnone, fun hdue => nomatch (refreshLevel_of_below hbelow).symm.trans hdue⟩
    rw [decideOpen_no_hit hlevel (rowHits_of_no_request hnone), if_neg hrest, setBank_self]

/-- Settles O45: DUE first, then the earliest request, then a pull-in. -/
theorem idleBankRefreshesOrOpens : Obligations.IdleBankRefreshesOrOpens := by
  intro s b hhold hstand hidle haccount
  have hexec := exec_decision_idle hhold hstand hidle
  refine ⟨fun hdue => exists_group_of_refresh ?_, fun earlier q later hbelow hreq hearlier hlater => ?_,
    fun hbelow hnone => ⟨fun hpull => exists_group_of_refresh ?_, fun hpull => ?_⟩⟩
  · rw [hexec, decideIdle_refresh (.inr (refreshLevel_of_due haccount hdue))]
  · have hq : earliestRequest s.banks[b].requests = some q := by rw [hreq, earliestRequest_append_cons hearlier hlater]
    rw [hexec, refreshLevel_of_below hbelow, decideIdle_open _ _ hq]
    rfl
  · rw [hexec, refreshLevel_of_below hbelow, decideIdle_no_request _ _ hnone, if_pos ((pullInAllowed_iff _).mpr hpull)]
  · rw [hexec, refreshLevel_of_below hbelow, decideIdle_no_request _ _ hnone, if_neg (mt (pullInAllowed_iff _).mp hpull), setBank_self]

end Sys2Proof.Machine
end

section
/-! PROOFS. The refresh law (R144): what it depends on, and the plain updates that keep it. -/

namespace Sys2Proof.Safety

open Sys2Proof.Machine

/-! ## One bank's account -/

/-- What R144 says of a bank's account and timer, beside the value of k. -/
def AccountLegal (awake : Bool) (r : RefreshBank) : Prop :=
  -8 ≤ r.account ∧ r.account ≤ 8 ∧ (r.k = 0 ∨ awake = false → r.account = 0 ∧ r.timer = none)

theorem accountLegal_of_rest {r : RefreshBank} (awake : Bool) (haccount : r.account = 0) (htimer : r.timer = none) :
    AccountLegal awake r :=
  ⟨by omega, by omega, fun _ => ⟨haccount, htimer⟩⟩

/-- An account that is at rest because nothing is retained stays legal whatever becomes of the bank's power. -/
theorem AccountLegal.of_k_zero {awake : Bool} {r : RefreshBank} (h : AccountLegal awake r) (hk : r.k = 0) (awake' : Bool) :
    AccountLegal awake' r := by
  obtain ⟨haccount, htimer⟩ := h.2.2 (.inl hk)
  exact accountLegal_of_rest awake' haccount htimer

/-- A tick timer runs only at an awake bank that retains something. -/
theorem AccountLegal.of_timer {awake : Bool} {r : RefreshBank} (h : AccountLegal awake r) (ht : r.timer.isSome = true) :
    r.k ≠ 0 ∧ awake = true := by
  obtain ⟨-, -, hrest⟩ := h
  refine ⟨fun hk => ?_, Bool.of_not_eq_false fun hawake => ?_⟩
  · simp [(hrest (.inl hk)).2] at ht
  · simp [(hrest (.inr hawake)).2] at ht

theorem accountLegal_raiseAccount {awake : Bool} {r : RefreshBank} (c : TempClass) (h : AccountLegal awake r)
    (ht : r.timer.isSome = true) (hlow : r.account < 8) : AccountLegal awake (raiseAccount c r) := by
  obtain ⟨hk, hawake⟩ := h.of_timer ht
  obtain ⟨hfloor, -, -⟩ := h
  refine ⟨?_, ?_, fun hrest => ?_⟩
  · simp only [raiseAccount, startInterval_frame]
    omega
  · simp only [raiseAccount, startInterval_frame]
    omega
  · simp [raiseAccount, hk, hawake] at hrest

theorem accountRefreshed_k (r : RefreshBank) : (accountRefreshed r).k = r.k := by
  unfold accountRefreshed
  split
  · rfl
  · split <;> rfl

theorem accountLegal_accountRefreshed {r : RefreshBank} (h : AccountLegal true r) : AccountLegal true (accountRefreshed r) := by
  unfold accountRefreshed
  split
  · exact h
  · split
    · rename_i hdown
      obtain ⟨hk, hfloor⟩ := hdown
      obtain ⟨-, hceiling, -⟩ := h
      simp only [Config.accountFloor] at hfloor
      refine ⟨?_, ?_, fun hrest => ?_⟩
      · show -8 ≤ r.account - 1
        omega
      · show r.account - 1 ≤ 8
        omega
      · simp at hrest
        omega
    · exact h

theorem wakeRefresh_k (c : TempClass) (r : RefreshBank) : (wakeRefresh c r).k = r.k := by
  unfold wakeRefresh
  split <;> rfl

theorem accountLegal_wakeRefresh (c : TempClass) (r : RefreshBank) : AccountLegal true (wakeRefresh c r) := by
  unfold wakeRefresh
  split
  · exact accountLegal_of_rest true rfl rfl
  · rename_i hk
    exact ⟨by simp, by simp, fun hrest => by simp [hk] at hrest⟩

/-! ## The law with the hand-over of k still due at some banks -/

/-- What the refresh law says of banks and accounts, where the banks in `due` have still to be handed their k (R151). -/
structure AccountsBut (due : List BankId) (s : State) : Prop where
  accounts : ∀ b : BankId, AccountLegal (bankAwake s.banks[b]) s.refresh.banks[b]
  counts : ∀ b : BankId, b ∉ due → s.refresh.banks[b].k = retainedCount s b
  sleep : SleepHolds s

/-- The law falls into what it says of the accounts and what it says of the domains. -/
theorem refreshLegal_iff (s : State) : RefreshLegal s ↔ AccountsBut [] s ∧ RegionsPowered s ∧ PhaseAgrees s := by
  constructor
  · rintro ⟨hbanks, hpowered, hphase, hsleep⟩
    refine ⟨⟨fun b => ?_, fun b _ => ?_, hsleep⟩, hpowered, hphase⟩
    · obtain ⟨hfloor, hceiling, -, hrest⟩ := hbanks b
      exact ⟨hfloor, hceiling, hrest⟩
    · obtain ⟨-, -, hk, -⟩ := hbanks b
      exact hk
  · rintro ⟨⟨haccounts, hcounts, hsleep⟩, hpowered, hphase⟩
    refine ⟨fun b => ?_, hpowered, hphase, hsleep⟩
    obtain ⟨hfloor, hceiling, hrest⟩ := haccounts b
    exact ⟨hfloor, hceiling, hcounts b List.not_mem_nil, hrest⟩

theorem RefreshLegal.accounts {s : State} (h : RefreshLegal s) : AccountsBut [] s := ((refreshLegal_iff s).mp h).1

theorem RefreshLegal.powered {s : State} (h : RefreshLegal s) : RegionsPowered s := ((refreshLegal_iff s).mp h).2.1

theorem RefreshLegal.phase {s : State} (h : RefreshLegal s) : PhaseAgrees s := ((refreshLegal_iff s).mp h).2.2

/-! ## States in which the law says the same -/

/-- The domain and phase of the switch controller, which the law looks at. -/
def servedPhase (s : State) : Option (DomainId × SwitchPhase) := s.domains.serving.map fun v => (v.domain, v.phase)

/-- Both states agree in all that the law of the accounts looks at. -/
structure SameAccounts (s t : State) : Prop where
  awake : ∀ b : BankId, bankAwake t.banks[b] = bankAwake s.banks[b]
  accounts : t.refresh.banks = s.refresh.banks
  retained : ∀ r, (regionState t r).retained = (regionState s r).retained
  mode : t.arrayMode.mode = s.arrayMode.mode

/-- Both states agree in all that the refresh law looks at. -/
structure SameLaw (s t : State) : Prop extends SameAccounts s t where
  off : ∀ r, regionState t r = .off ↔ regionState s r = .off
  states : t.domains.states = s.domains.states
  served : servedPhase t = servedPhase s

theorem regionState_of_regions {s t : State} (h : t.regions = s.regions) (r : RegionId) : regionState t r = regionState s r := by
  rw [regionState, regionState, h]

theorem sameLaw_of_awake {s t : State} (hawake : ∀ b : BankId, bankAwake t.banks[b] = bankAwake s.banks[b])
    (h : t.refresh.banks = s.refresh.banks ∧ t.regions = s.regions ∧ t.domains = s.domains ∧ t.arrayMode.mode = s.arrayMode.mode) :
    SameLaw s t := by
  obtain ⟨haccounts, hregions, hdomains, hmode⟩ := h
  have hstate := regionState_of_regions hregions
  exact { awake := hawake, accounts := haccounts, mode := hmode, retained := fun r => by rw [hstate], off := fun r => by rw [hstate],
          states := by rw [hdomains], served := by rw [servedPhase, servedPhase, hdomains] }

/-- The blocks of State that the refresh law looks at are the same. -/
def SameBlocks (s t : State) : Prop :=
  t.banks = s.banks ∧ t.refresh.banks = s.refresh.banks ∧ t.regions = s.regions ∧ t.domains = s.domains
    ∧ t.arrayMode.mode = s.arrayMode.mode

theorem SameBlocks.sameLaw {s t : State} (h : SameBlocks s t) : SameLaw s t := by
  obtain ⟨hbanks, hrest⟩ := h
  exact sameLaw_of_awake (fun b => by rw [hbanks]) hrest

/-- A change of the domains that keeps their states, and the domain and phase served. -/
theorem sameLaw_with_domains {s : State} (x : DomainControl) (hstates : x.states = s.domains.states)
    (hserved : servedPhase { s with domains := x } = servedPhase s) : SameLaw s { s with domains := x } :=
  { awake := fun _ => rfl, accounts := rfl, mode := rfl, retained := fun _ => rfl, off := fun _ => Iff.rfl, states := hstates, served := hserved }

theorem SameLaw.trans {s t u : State} (h : SameLaw s t) (h' : SameLaw t u) : SameLaw s u where
  awake b := (h'.awake b).trans (h.awake b)
  accounts := h'.accounts.trans h.accounts
  retained r := (h'.retained r).trans (h.retained r)
  off r := (h'.off r).trans (h.off r)
  states := h'.states.trans h.states
  served := h'.served.trans h.served
  mode := h'.mode.trans h.mode

theorem regionBank_regionOf (b : BankId) (g : Fin 8) : regionBank (regionOf b g) = b := by
  apply Fin.ext
  simp only [regionBank, regionOf]
  omega

theorem retainedCount_eq_of_retained {s t : State} {b : BankId}
    (h : ∀ g, (regionState t (regionOf b g)).retained = (regionState s (regionOf b g)).retained) :
    retainedCount t b = retainedCount s b := by
  simp only [retainedCount, h]

theorem retainedCount_eq_zero {s : State} {b : BankId} (h : ∀ r, regionBank r = b → (regionState s r).retained = false) :
    retainedCount s b = 0 :=
  List.countP_eq_zero.mpr fun g _ => by simp [h (regionOf b g) (regionBank_regionOf b g)]

theorem phaseAgrees_iff (s : State) : PhaseAgrees s ↔ ∀ d p, servedPhase s = some (d, p) →
    (p = .rising → s.domains.states[d] = .rampingUp) ∧ (p = .falling → s.domains.states[d] = .rampingDown) := by
  constructor
  · intro h d p hp
    obtain ⟨v, hv, heq⟩ := Option.map_eq_some_iff.mp hp
    cases heq
    exact h v hv
  · exact fun h v hv => h v.domain v.phase (by simp [servedPhase, hv])

theorem SameLaw.phase {s t : State} (h : SameLaw s t) (hs : PhaseAgrees s) : PhaseAgrees t := by
  rw [phaseAgrees_iff] at hs ⊢
  simpa only [h.served, h.states] using hs

theorem SameLaw.powered {s t : State} (h : SameLaw s t) (hs : RegionsPowered s) : RegionsPowered t := by
  intro r hr
  rw [h.states]
  exact hs r (mt (h.off r).mpr hr)

theorem AccountsBut.congr {due : List BankId} {s t : State} (h : AccountsBut due s) (hsame : SameAccounts s t) : AccountsBut due t where
  accounts b := by
    rw [hsame.awake b, hsame.accounts]
    exact h.accounts b
  counts b hb := by
    rw [hsame.accounts, retainedCount_eq_of_retained fun g => hsame.retained _]
    exact h.counts b hb
  sleep hmode b := by
    rw [hsame.awake b]
    exact h.sleep (hsame.mode ▸ hmode) b

theorem RefreshLegal.congr {s t : State} (h : RefreshLegal s) (hsame : SameLaw s t) : RefreshLegal t :=
  (refreshLegal_iff t).mpr ⟨h.accounts.congr hsame.toSameAccounts, hsame.powered h.powered, hsame.phase h.phase⟩

/-- An operation that writes none of the law's blocks keeps the law. -/
theorem RefreshLegal.of_frame {s t : State} (h : RefreshLegal s) (hframe : SameBlocks s t) : RefreshLegal t := h.congr hframe.sameLaw

/-- An operation that leaves the domains alone and takes no region out of OFF keeps the law if it keeps that of the accounts. -/
theorem RefreshLegal.of_accounts {s t : State} (h : RefreshLegal s) (haccounts : AccountsBut [] t)
    (hoff : ∀ r, regionState s r = .off → regionState t r = .off) (hdomains : t.domains = s.domains) : RefreshLegal t := by
  refine (refreshLegal_iff t).mpr ⟨haccounts, fun r hr => ?_, ?_⟩
  · rw [hdomains]
    exact h.powered r (mt (hoff r) hr)
  · rw [phaseAgrees_iff, servedPhase, hdomains]
    exact (phaseAgrees_iff s).mp h.phase

/-! ## Banks and accounts -/

/-- A bank and its account change together: the account is legal with the new power, k stays, and in ASLEEP and WAKING the bank is not awake. -/
theorem AccountsBut.after_setBank_setRefresh {due : List BankId} {s : State} {b : BankId} {k : Bank} {r : RefreshBank} (h : AccountsBut due s)
    (haccount : AccountLegal (bankAwake k) r) (hk : r.k = s.refresh.banks[b].k)
    (hsleep : s.arrayMode.mode = .asleep ∨ s.arrayMode.mode = .waking → bankAwake k = false) :
    AccountsBut due (setRefresh b r (setBank b k s)) where
  accounts c := by
    show AccountLegal (bankAwake (s.banks.set b k)[c]) (s.refresh.banks.set b r)[c]
    by_cases hc : c = b
    · subst hc
      rw [getElem_set_same, getElem_set_same]
      exact haccount
    · rw [getElem_set_other _ _ _ _ hc, getElem_set_other _ _ _ _ hc]
      exact h.accounts c
  counts c hdue := by
    show (s.refresh.banks.set b r)[c].k = retainedCount s c
    by_cases hc : c = b
    · subst hc
      rw [getElem_set_same, hk]
      exact h.counts c hdue
    · rw [getElem_set_other _ _ _ _ hc]
      exact h.counts c hdue
  sleep hmode c := by
    show bankAwake (s.banks.set b k)[c] = false
    by_cases hc : c = b
    · subst hc
      rw [getElem_set_same]
      exact hsleep hmode
    · rw [getElem_set_other _ _ _ _ hc]
      exact h.sleep hmode c

theorem setRefresh_self (s : State) (b : BankId) : setRefresh b s.refresh.banks[b] s = s := by
  simp [setRefresh]

theorem AccountsBut.after_setBank {due : List BankId} {s : State} {b : BankId} {k : Bank} (h : AccountsBut due s)
    (haccount : AccountLegal (bankAwake k) s.refresh.banks[b])
    (hsleep : s.arrayMode.mode = .asleep ∨ s.arrayMode.mode = .waking → bankAwake k = false) : AccountsBut due (setBank b k s) := by
  have hboth := h.after_setBank_setRefresh haccount rfl hsleep
  rwa [show s.refresh.banks[b] = (setBank b k s).refresh.banks[b] from rfl, setRefresh_self] at hboth

theorem AccountsBut.after_setRefresh {due : List BankId} {s : State} {b : BankId} {r : RefreshBank} (h : AccountsBut due s)
    (haccount : AccountLegal (bankAwake s.banks[b]) r) (hk : r.k = s.refresh.banks[b].k) : AccountsBut due (setRefresh b r s) := by
  have hboth := h.after_setBank_setRefresh haccount hk fun hmode => h.sleep hmode b
  rwa [setBank_self] at hboth

theorem RefreshLegal.after_setRefresh {s : State} {b : BankId} {r : RefreshBank} (h : RefreshLegal s)
    (haccount : AccountLegal (bankAwake s.banks[b]) r) (hk : r.k = s.refresh.banks[b].k) : RefreshLegal (setRefresh b r s) :=
  h.of_accounts (h.accounts.after_setRefresh haccount hk) (fun _ hr => hr) rfl

theorem RefreshLegal.after_setBank {s : State} {b : BankId} {k : Bank} (h : RefreshLegal s) (hk : bankAwake k = bankAwake s.banks[b]) :
    RefreshLegal (setBank b k s) :=
  h.congr (sameLaw_of_awake (fun c => bankAwake_setBank b c k s hk) ⟨rfl, rfl, rfl, rfl⟩)

theorem sameLaw_bankDecide (b : BankId) (s : State) : SameLaw s (bankDecide b s) :=
  sameLaw_of_awake (fun c => bankAwake_bankDecide b c s) (by simp)

theorem RefreshLegal.after_bankDecide {s : State} (h : RefreshLegal s) (b : BankId) : RefreshLegal (bankDecide b s) :=
  h.congr (sameLaw_bankDecide b s)

theorem RefreshLegal.after_indicationChanged {s : State} (h : RefreshLegal s) (i : RefreshLevel × Bool) (b : BankId) :
    RefreshLegal (indicationChanged i b s) :=
  h.congr (sameLaw_of_awake (fun c => bankAwake_indicationChanged i b c s) (by simp))

theorem RefreshLegal.after_joinBank {s : State} (h : RefreshLegal s) (b : BankId) (q : BankRequest) : RefreshLegal (joinBank b q s) :=
  h.congr (sameLaw_of_awake (fun c => bankAwake_joinBank b c q s) (by simp))

/-! ## The hand-over of k (R134, R151) -/

/-- The hand-over of k settles the bank it is made for. -/
theorem AccountsBut.after_handK {due : List BankId} {s : State} {b : BankId} (h : AccountsBut (b :: due) s) : AccountsBut due (handK b s) := by
  have hspec := refreshWithK_spec s.refresh.tempClass s.banks[b] (retainedCount s b) s.refresh.banks[b] (h.accounts b)
  obtain ⟨hk, hfloor, hceiling, hrest⟩ := hspec
  refine ⟨fun c => ?_, fun c hdue => ?_, fun hmode c => ?_⟩
  · rw [bankAwake_handK]
    by_cases hc : c = b
    · subst hc
      rw [handK_bank_same]
      exact ⟨hfloor, hceiling, hk.symm ▸ hrest⟩
    · rw [handK_bank_other b c s hc]
      exact h.accounts c
  · rw [retainedCount_congr (s := s) (by simp) c]
    by_cases hc : c = b
    · subst hc
      rw [handK_bank_same]
      exact hk
    · rw [handK_bank_other b c s hc]
      exact h.counts c (by simp [hc, hdue])
  · rw [bankAwake_handK]
    simp only [handK_frame] at hmode
    exact h.sleep hmode c

theorem AccountsBut.after_handK_each {due : List BankId} {s : State} (h : AccountsBut due s) :
    AccountsBut [] (due.foldl (fun t b => handK b t) s) := by
  induction due generalizing s with
  | nil => exact h
  | cons b due ih => exact ih h.after_handK

theorem mem_allBanks : ∀ b : BankId, b ∈ allBanks := by decide

theorem regionState_mapRegions (f : RegionId → Region → Region) (s : State) (r : RegionId) :
    regionState (mapRegions f s) r = (f r s.regions[r]).state := congrArg Region.state (mapRegions_get f s r)

/-- Region records change, and the hand-over of k is due at each bank that may retain another number of them. -/
theorem AccountsBut.after_mapRegions {s : State} (h : AccountsBut [] s) (due : List BankId) (f : RegionId → Region → Region)
    (hothers : ∀ r, regionBank r ∉ due → (f r s.regions[r]).state.retained = (regionState s r).retained) :
    AccountsBut due (mapRegions f s) := by
  refine ⟨?_, fun b hdue => ?_, ?_⟩
  · simpa only [mapRegions_frame] using h.accounts
  · have hcount : retainedCount (mapRegions f s) b = retainedCount s b := retainedCount_eq_of_retained fun g => by
      rw [regionState_mapRegions]
      exact hothers _ ((regionBank_regionOf b g).symm ▸ hdue)
    simpa only [mapRegions_frame, hcount] using h.counts b List.not_mem_nil
  · simpa only [SleepHolds, mapRegions_frame] using h.sleep

/-- Region records change at any bank, none leaving OFF, and every bank is handed its k. -/
theorem RefreshLegal.after_handAllK_mapRegions {s : State} (h : RefreshLegal s) (f : RegionId → Region → Region)
    (hoff : ∀ r, regionState s r = .off → (f r s.regions[r]).state = .off) : RefreshLegal (handAllK (mapRegions f s)) := by
  have hdue : AccountsBut allBanks (mapRegions f s) := h.accounts.after_mapRegions allBanks f fun r hr => absurd (mem_allBanks _) hr
  refine h.of_accounts hdue.after_handK_each (fun r hr => ?_) (by simp)
  rw [regionState_of_regions (s := mapRegions f s) (by simp), regionState_mapRegions]
  exact hoff r hr

end Sys2Proof.Safety
end

section
/-! PROOFS. Orders and strokes keep the refresh law: they reach it only through a region's arming, the drop of ARMING regions with its hand-over of k, and the arbiter's decisions. -/

namespace Sys2Proof.Safety

open Sys2Proof.Machine

/-! ## The stop of an order (R84, R158) -/

theorem RefreshLegal.after_dropArming {s : State} (h : RefreshLegal s) (n : OrderName) : RefreshLegal (dropArming n s) := by
  unfold dropArming
  split
  · refine h.after_handAllK_mapRegions _ fun r hr => ?_
    have hunarmed : armedBy s n r = false := by simp [armedBy, hr]
    simpa [hunarmed, regionState] using hr
  · exact h

theorem RefreshLegal.after_stopOrder {s : State} (h : RefreshLegal s) (l : Lane) (c : Option StopCause) :
    RefreshLegal (stopOrder l c s) := by
  unfold stopOrder
  split
  · exact h
  · split
    · exact RefreshLegal.after_dropArming (h.of_frame (by simp [SameBlocks])) _
    · exact h

theorem RefreshLegal.after_endTest {s : State} (h : RefreshLegal s) (l : Lane) : RefreshLegal (endTest l s) :=
  h.of_frame (by simp [SameBlocks])

theorem RefreshLegal.after_toStopping {s : State} (h : RefreshLegal s) (l : Lane) (c : Option StopCause) :
    RefreshLegal (toStopping l c s) := by
  unfold toStopping
  split
  · exact (h.after_stopOrder l c).after_endTest l
  · exact h

/-! ## The end of a stroke (R109, R157) -/

/-- A region record changes within the retained states, or within those that are not, and not to or from OFF. -/
theorem sameLaw_setRegion {s : State} {r : RegionId} {v : Region} (hretained : v.state.retained = (regionState s r).retained)
    (hoff : v.state = .off ↔ regionState s r = .off) : SameLaw s (setRegion r v s) := by
  have hsame : regionState (setRegion r v s) r = v.state := congrArg Region.state (getElem_set_same _ _ _)
  have hother : ∀ x, x ≠ r → regionState (setRegion r v s) x = regionState s x := fun x hx =>
    congrArg Region.state (getElem_set_other _ _ _ _ hx)
  refine { awake := fun _ => rfl, accounts := rfl, mode := rfl, retained := fun x => ?_, off := fun x => ?_, states := rfl, served := rfl }
  · by_cases hx : x = r
    · rw [hx, hsame, hretained]
    · rw [hother x hx]
  · by_cases hx : x = r
    · rw [hx, hsame, hoff]
    · rw [hother x hx]

/-- A report of an arming stroke leaves its region retained: ARMING on, or KEPT at the end of its sweep. -/
theorem sameLaw_armingReport (i : StrokeId) (r : RegionId) (s : State) : SameLaw s (armingReport i r s) := by
  unfold armingReport
  split
  · rename_i harmed
    have hstate : regionState s r = .arming := by
      simp only [armedBy, Bool.and_eq_true, beq_iff_eq] at harmed
      exact harmed.1
    split
    · refine sameLaw_setRegion rfl Iff.rfl
    · have hkept : SameLaw s (setRegion r (Region.become .kept) s) :=
        sameLaw_setRegion (by rw [hstate]; rfl) (by simp [hstate, Region.become])
      refine hkept.trans (SameBlocks.sameLaw ?_)
      dsimp only
      split
      · split <;> simp [SameBlocks]
      · simp [SameBlocks]
  · exact SameBlocks.sameLaw (by simp [SameBlocks])

theorem sameLaw_strokeCompletes (r : StrokeRecord) (s : State) : SameLaw s (strokeCompletes r s) := by
  unfold strokeCompletes
  dsimp only
  split
  · exact SameBlocks.sameLaw (by simp [SameBlocks])
  · split
    · exact SameLaw.trans (SameBlocks.sameLaw (by simp [SameBlocks])) (sameLaw_armingReport _ _ _)
    · exact SameBlocks.sameLaw (by simp [SameBlocks])

theorem RefreshLegal.after_strokeFails {s : State} (h : RefreshLegal s) (r : StrokeRecord) (c : StopCause) :
    RefreshLegal (strokeFails r c s) := by
  have hremoved : RefreshLegal (removeStroke r s) := h.of_frame (by simp [SameBlocks])
  unfold strokeFails
  dsimp only
  split
  · exact hremoved
  · exact RefreshLegal.after_stopOrder (hremoved.of_frame (by simp [SameBlocks])) _ _

/-! ## The issue of strokes (R93 to R98) -/

theorem RefreshLegal.after_placeBankRequest {s : State} (h : RefreshLegal s) (r : StrokeRecord) (a : Nat) (k : BankRequestKind) :
    RefreshLegal (placeBankRequest r a k s) := by
  unfold placeBankRequest
  split
  · exact (h.after_strokeFails r _).after_endTest _
  · exact h.after_joinBank _ _

theorem RefreshLegal.after_placeFirstStep {s : State} (h : RefreshLegal s) (r : StrokeRecord) (aux : Word) :
    RefreshLegal (placeFirstStep r aux s) := by
  unfold placeFirstStep
  cases r.kind with
  | load => exact h.of_frame (by simp [SameBlocks])
  | fetch | copy | scrub | fill | arming => exact h.after_placeBankRequest _ _ _

theorem RefreshLegal.after_issueStroke {s : State} (h : RefreshLegal s) (l : Lane) (b : Option BufferId) :
    RefreshLegal (issueStroke l b s) := by
  unfold issueStroke
  split
  · exact h
  · dsimp only
    split
    · exact h.after_toStopping l _
    · exact RefreshLegal.after_placeFirstStep (h.of_frame (by simp [SameBlocks])) _ _

theorem RefreshLegal.after_issueAlone {s : State} (h : RefreshLegal s) (fuel : Nat) (l : Lane) : RefreshLegal (issueAlone fuel l s) := by
  induction fuel generalizing s with
  | zero => exact h
  | succ fuel ih =>
    unfold issueAlone
    split
    · exact ih (h.after_issueStroke l none)
    · exact h

theorem RefreshLegal.after_grantBuffer {s : State} (h : RefreshLegal s) (l : Lane) (b : BufferId) : RefreshLegal (grantBuffer l b s) := by
  unfold grantBuffer
  split
  · exact h
  · dsimp only
    split
    · exact h.after_issueStroke l _
    · exact RefreshLegal.after_issueStroke (h.of_frame (by simp [SameBlocks])) l _

theorem RefreshLegal.after_grantBuffers {s : State} (h : RefreshLegal s) (fuel : Nat) : RefreshLegal (grantBuffers fuel s) := by
  induction fuel generalizing s with
  | zero => exact h
  | succ fuel ih =>
    unfold grantBuffers
    split
    · exact ih (h.after_grantBuffer _ _)
    · exact h

theorem RefreshLegal.after_grants {s : State} (h : RefreshLegal s) : RefreshLegal (grants s) := h.after_grantBuffers 12

theorem RefreshLegal.after_issueMore {s : State} (h : RefreshLegal s) (l : Lane) : RefreshLegal (issueMore l s) :=
  (h.after_issueAlone _ l).after_grants

theorem RefreshLegal.after_issueOne {s : State} (h : RefreshLegal s) (l : Lane) : RefreshLegal (issueOne l s) := by
  unfold issueOne
  split
  · exact h.after_issueStroke l none
  · split
    · split
      · exact h.after_grantBuffer l _
      · exact h
    · exact h

/-! ## What follows the end of a stroke -/

theorem RefreshLegal.after_endTests {s : State} (h : RefreshLegal s) (l : Lane) : RefreshLegal (endTests l s) :=
  h.of_frame (by simp [SameBlocks])

theorem RefreshLegal.after_strokeDone {s : State} (h : RefreshLegal s) (r : StrokeRecord) : RefreshLegal (strokeDone r s) :=
  ((h.congr (sameLaw_strokeCompletes r s)).after_issueMore _).after_endTests _

theorem RefreshLegal.after_strokeFailed {s : State} (h : RefreshLegal s) (r : StrokeRecord) (c : StopCause) :
    RefreshLegal (strokeFailed r c s) :=
  ((h.after_strokeFails r c).after_issueMore _).after_endTests _

theorem RefreshLegal.after_dataFails {s : State} (h : RefreshLegal s) (i : StrokeId) : RefreshLegal (dataFails i s) := by
  unfold dataFails
  split
  · exact h.after_strokeFailed _ _
  · exact h

/-! ## The host's data and the results of accesses (R101 to R105) -/

theorem RefreshLegal.after_placeWrite {s : State} (h : RefreshLegal s) (r : StrokeRecord) (a : Nat) (data : Line) :
    RefreshLegal (placeWrite r a data s) := by
  unfold placeWrite
  split
  · exact h.after_strokeFailed r _
  · exact h.after_joinBank _ _

theorem RefreshLegal.after_hostReadDone {s : State} (h : RefreshLegal s) (data : Line) (a : Access) :
    RefreshLegal (hostReadDone data a s) := by
  unfold hostReadDone
  split
  · exact RefreshLegal.after_placeWrite (h.of_frame (by simp [SameBlocks])) _ _ _
  · exact h

theorem RefreshLegal.after_hostWriteDone {s : State} (h : RefreshLegal s) (a : Access) : RefreshLegal (hostWriteDone a s) := by
  unfold hostWriteDone
  split
  · exact h.after_strokeDone _
  · exact h

theorem RefreshLegal.after_readDelivered {s : State} (h : RefreshLegal s) (r : StrokeRecord) (n : Nat) (data : Line) :
    RefreshLegal (readDelivered r n data s) := by
  unfold readDelivered
  dsimp only
  split
  · exact RefreshLegal.after_placeWrite (h.of_frame (by simp [SameBlocks])) _ _ _
  · exact h.of_frame (by simp [SameBlocks])

theorem RefreshLegal.after_handResult {s : State} (h : RefreshLegal s) (q : BankRequest) (c : Classification) (data : Line) :
    RefreshLegal (handResult q c data s) := by
  unfold handResult
  split
  · exact h
  · split
    · exact h.after_strokeDone _
    · exact h.after_strokeFailed _ _
    · exact h.after_readDelivered _ _ _
    · exact h.after_strokeFailed _ _
    · exact h.after_strokeDone _

end Sys2Proof.Safety
end

section
/-! PROOFS. The array mode, the domains and the start of orders keep the refresh law: a bank that sleeps or loses power leaves its account at rest, and a domain's regions are OFF while it is not ON. -/

namespace Sys2Proof.Safety

open Sys2Proof.Machine

/-! ## The array mode (R173 to R176) -/

/-- The array mode changes, to ASLEEP or WAKING only while no bank is awake (R129). -/
theorem RefreshLegal.after_mode {s : State} (h : RefreshLegal s) (m : ModeLogic)
    (hm : m.mode = .asleep ∨ m.mode = .waking → ∀ b : BankId, bankAwake s.banks[b] = false) :
    RefreshLegal { s with arrayMode := m } := by
  obtain ⟨hbanks, hpowered, hphase, -⟩ := h
  exact ⟨hbanks, hpowered, hphase, hm⟩

theorem RefreshLegal.after_requestHeaderUpdate {s : State} (h : RefreshLegal s) : RefreshLegal (requestHeaderUpdate s) :=
  h.of_frame (by simp [SameBlocks])

theorem RefreshLegal.after_startWake {s : State} (h : RefreshLegal s) (hsleep : ∀ b : BankId, bankAwake s.banks[b] = false) :
    RefreshLegal (startWake s) :=
  (h.after_mode _ fun _ => hsleep).after_requestHeaderUpdate

theorem RefreshLegal.after_sleepEntryTest {s : State} (h : RefreshLegal s) : RefreshLegal (sleepEntryTest s) := by
  unfold sleepEntryTest
  split
  · rename_i hall
    rw [Bool.and_eq_true, allAsleep_iff] at hall
    obtain ⟨-, hsleep⟩ := hall
    unfold endSleepEntry
    split
    · exact h.after_startWake hsleep
    · exact (h.after_mode _ fun _ => hsleep).after_requestHeaderUpdate
  · exact h

theorem RefreshLegal.after_wakeFollow {s : State} (h : RefreshLegal s) : RefreshLegal (wakeFollow s) := by
  unfold wakeFollow
  split
  · rename_i hdemand
    rw [Bool.and_eq_true, beq_iff_eq] at hdemand
    obtain ⟨hasleep, -⟩ := hdemand
    exact h.after_startWake (h.accounts.sleep (.inl hasleep))
  · exact h

/-! ## The state of a domain (R150, R166) -/

/-- A domain that is not ON has no region but OFF ones. -/
theorem RefreshLegal.off_of_not_on {s : State} {d : DomainId} (h : RefreshLegal s) (hd : s.domains.states[d] ≠ .on) {r : RegionId}
    (hr : regionDomain r = d) : regionState s r = .off := by
  exact Decidable.byContradiction fun hoff => hd (hr ▸ h.powered r hoff)

theorem AccountsBut.with_domains {due : List BankId} {s : State} (h : AccountsBut due s) (x : DomainControl) :
    AccountsBut due { s with domains := x } :=
  h.congr ⟨fun _ => rfl, rfl, fun _ => rfl, rfl⟩

theorem setDomain_states (d : DomainId) (st : DomainState) (s : State) :
    (setDomain d st s).domains.states = s.domains.states.set d st := by
  simp [setDomain]

theorem servedPhase_setDomain (d : DomainId) (st : DomainState) (s : State) : servedPhase (setDomain d st s) = servedPhase s := by
  simp [setDomain, servedPhase]

theorem sameAccounts_setDomain (d : DomainId) (st : DomainState) (s : State) : SameAccounts s (setDomain d st s) :=
  ⟨fun b => by simp only [setDomain_frame], by simp, fun r => by rw [regionState_of_regions (s := s) (by simp)], by simp⟩

/-- One domain takes a state: its regions are then OFF, or the state is ON; the other regions are as before. -/
theorem RegionsPowered.after_domain {s t : State} {d : DomainId} {st : DomainState} (h : RegionsPowered s)
    (hstates : t.domains.states = s.domains.states.set d st)
    (hin : ∀ r, regionDomain r = d → regionState t r = .off ∨ st = .on)
    (hout : ∀ r, regionDomain r ≠ d → regionState t r = regionState s r) : RegionsPowered t := by
  intro r hr
  rw [hstates]
  by_cases hd : regionDomain r = d
  · subst hd
    rw [getElem_set_same]
    exact (hin r rfl).resolve_left hr
  · rw [getElem_set_other _ _ _ _ hd]
    exact h r (hout r hd ▸ hr)

theorem phaseAgrees_of_served {s : State} {d : DomainId} {p : SwitchPhase} (hserved : servedPhase s = some (d, p))
    (hrising : p = .rising → s.domains.states[d] = .rampingUp) (hfalling : p = .falling → s.domains.states[d] = .rampingDown) :
    PhaseAgrees s := by
  rw [phaseAgrees_iff, hserved]
  rintro _ _ ⟨⟩
  exact ⟨hrising, hfalling⟩

theorem regionState_domainBecomes (d : DomainId) (st : RegionState) (s : State) (r : RegionId) :
    regionState (domainBecomes d st s) r = if regionDomain r = d then st else regionState s r := by
  rw [regionState, domainBecomes_get]
  split <;> rfl

/-- A region of a domain lies in one of the domain's two banks. -/
theorem regionBank_of_regionDomain {r : RegionId} {d : DomainId} (hr : regionDomain r = d) :
    regionBank r = lowerBank d ∨ regionBank r = upperBank d := by
  subst hr
  have hhalf : (regionBank r).val = (regionBank r).val / 2 * 2 ∨ (regionBank r).val = (regionBank r).val / 2 * 2 + 1 := by omega
  exact hhalf.imp Fin.ext Fin.ext

/-- Regions of a domain take one state; the hand-over of k is then due at the domain's banks. -/
theorem AccountsBut.after_domainBecomes {s : State} (h : AccountsBut [] s) (d : DomainId) (st : RegionState) :
    AccountsBut [lowerBank d, upperBank d] (domainBecomes d st s) := by
  refine h.after_mapRegions _ _ fun r hr => ?_
  have hd : regionDomain r ≠ d := fun hd => by simpa [or_comm] using hr (by simpa using regionBank_of_regionDomain hd)
  rw [if_neg (by simpa using hd)]
  rfl

/-! ## The drain of a domain (R170, R126, R142, R153) -/

theorem AccountsBut.after_powerOffBank {due : List BankId} {s : State} (h : AccountsBut due s) (b : BankId) :
    AccountsBut due (powerOffBank b s) :=
  h.after_setBank_setRefresh (accountLegal_of_rest _ rfl rfl) rfl fun _ => rfl

theorem AccountsBut.after_dropPower {s : State} (h : AccountsBut [] s) (d : DomainId) : AccountsBut [] (dropPower d s) := by
  have hcells : AccountsBut [] { s with array := discardCells d s.array } := h.congr ⟨fun _ => rfl, rfl, fun _ => rfl, rfl⟩
  have hoff := (hcells.after_powerOffBank (lowerBank d)).after_powerOffBank (upperBank d)
  unfold dropPower
  exact (hoff.after_domainBecomes d .off).after_handK.after_handK

theorem regionState_dropPower (d : DomainId) (s : State) (r : RegionId) :
    regionState (dropPower d s) r = if regionDomain r = d then .off else regionState s r := by
  have hregions : (dropPower d s).regions = (domainBecomes d .off s).regions := by simp [dropPower, domainBecomes]
  rw [regionState_of_regions hregions, regionState_domainBecomes]

/-- The power of a domain falls as it begins to ramp down. -/
theorem RefreshLegal.after_drain {s : State} (h : RefreshLegal s) (v : Served) (timer : Option Nat) :
    RefreshLegal (dropPower v.domain (setDomain v.domain .rampingDown
      { s with domains := { s.domains with serving := some { v with phase := .falling }, rampTimer := timer } })) := by
  refine (refreshLegal_iff _).mpr ⟨((h.accounts.with_domains _).congr (sameAccounts_setDomain _ _ _)).after_dropPower _,
    h.powered.after_domain (d := v.domain) (st := .rampingDown) ?_ (fun r hr => ?_) fun r hr => ?_, ?_⟩
  · simp [setDomain_states]
  · simp [regionState_dropPower, hr]
  · rw [regionState_dropPower, if_neg hr, regionState_of_regions (s := s) (by simp)]
  · refine phaseAgrees_of_served (d := v.domain) (p := .falling) ?_ nofun fun _ => ?_
    · simp [servedPhase, setDomain]
    · simp [setDomain_states]

theorem RefreshLegal.after_discardStroke {s : State} (h : RefreshLegal s) (r : StrokeRecord) : RefreshLegal (discardStroke s r) := by
  unfold discardStroke
  split
  · exact h.after_strokeFailed r _
  · exact h

theorem RefreshLegal.after_startDrain {s : State} (h : RefreshLegal s) (v : Served) : RefreshLegal (startDrain v s) := by
  unfold startDrain
  refine RefreshLegal.after_sleepEntryTest (List.foldlRecOn _ _ ?_ fun t ht r _ => RefreshLegal.after_discardStroke ht r)
  exact (h.after_drain v (some Config.rampDownUs)).of_frame (by simp [SameBlocks])

theorem RefreshLegal.after_drainTest {s : State} (h : RefreshLegal s) : RefreshLegal (drainTest s) := by
  unfold drainTest
  split
  · split
    · exact h.after_startDrain _
    · exact h
  · exact h

theorem RefreshLegal.after_reportStoodDown {s : State} (h : RefreshLegal s) (b : BankId) : RefreshLegal (reportStoodDown b s) := by
  unfold reportStoodDown
  split
  · exact h
  · rename_i v hserving
    split
    · refine RefreshLegal.after_drainTest (h.congr (sameLaw_with_domains _ rfl ?_))
      simp only [servedPhase, hserving]
      split <;> rfl
    · exact h

/-! ## Banks coming to rest (R126, R127) -/

theorem RefreshLegal.after_enterAsleep {s : State} (h : RefreshLegal s) (b : BankId) : RefreshLegal (enterAsleep b s) := by
  have hasleep : RefreshLegal (setRefresh b (refreshAtRest s.refresh.banks[b]) (setBank b (asleepBank s.banks[b]) s)) :=
    h.of_accounts (h.accounts.after_setBank_setRefresh (accountLegal_of_rest _ rfl rfl) rfl fun _ => rfl) (fun _ hr => hr) rfl
  unfold enterAsleep
  dsimp only
  split
  · exact hasleep.after_sleepEntryTest.after_reportStoodDown b
  · exact hasleep.after_sleepEntryTest

theorem RefreshLegal.after_restOrDecide {s : State} (h : RefreshLegal s) (b : BankId) : RefreshLegal (restOrDecide b s) := by
  unfold restOrDecide
  split
  · exact h.after_enterAsleep b
  · split
    · exact h.after_reportStoodDown b
    · exact h.after_bankDecide b

/-- A bank state with power in which the bank is not ASLEEP. -/
theorem bankAwake_of_state {k : Bank} {st : BankState} (h : k.state = st) (hst : st ≠ .unpowered ∧ st ≠ .asleep) :
    bankAwake k = true := by
  simp [bankAwake, h, hst]

theorem RefreshLegal.after_startClose {s : State} (h : RefreshLegal s) {b : BankId} (hopen : s.banks[b].state = .opened) (k : Bank) :
    RefreshLegal (setBank b (startClose k) s) :=
  h.after_setBank ((bankAwake_of_state (st := .closing) rfl (by simp)).trans (bankAwake_of_state hopen (by simp)).symm)

theorem RefreshLegal.after_closeOrDecide {s : State} (h : RefreshLegal s) (b : BankId) : RefreshLegal (closeOrDecide b s) := by
  unfold closeOrDecide
  split
  · split
    · rename_i hopen
      exact h.after_startClose (eq_of_beq hopen) _
    · exact h
  · exact h.after_bankDecide b

theorem RefreshLegal.after_sleepEntryAt {s : State} (h : RefreshLegal s) (b : BankId) : RefreshLegal (sleepEntryAt b s) := by
  unfold sleepEntryAt
  split
  · exact h
  · exact h
  · exact h.after_enterAsleep b
  · exact h.after_startClose ‹_› _
  all_goals exact h.after_setBank rfl

theorem RefreshLegal.after_startSleepEntry {s : State} (h : RefreshLegal s) : RefreshLegal (startSleepEntry s) := by
  have hentering := (h.after_mode { s.arrayMode with mode := .enteringSleep, idleTimer := none } (by simp)).after_requestHeaderUpdate
  exact RefreshLegal.after_sleepEntryTest (List.foldlRecOn _ _ hentering fun t ht b _ => RefreshLegal.after_sleepEntryAt ht b)

theorem RefreshLegal.after_standDownAt {s : State} (h : RefreshLegal s) (b : BankId) : RefreshLegal (standDownAt b s) := by
  unfold standDownAt
  split
  · exact h
  · refine RefreshLegal.after_reportStoodDown ?_ b
    exact h.after_setBank rfl
  · refine RefreshLegal.after_reportStoodDown ?_ b
    exact h.after_setBank rfl
  · exact h.after_startClose ‹_› _
  all_goals exact h.after_setBank rfl

/-! ## The switch controller (R168 to R170) -/

theorem RefreshLegal.after_startRampUp {s : State} (h : RefreshLegal s) (q : DomainRequest) (hd : s.domains.states[q.domain] ≠ .on) :
    RefreshLegal (startRampUp q s) := by
  refine (refreshLegal_iff _).mpr ⟨(h.accounts.with_domains _).congr (sameAccounts_setDomain _ _ _),
    h.powered.after_domain (d := q.domain) (st := .rampingUp) (setDomain_states _ _ _) (fun r hr => .inl ?_) fun r _ => ?_, ?_⟩
  · rw [regionState_of_regions (s := s) (by simp)]
    exact h.off_of_not_on hd hr
  · exact regionState_of_regions (by simp) r
  · refine phaseAgrees_of_served (d := q.domain) (p := .rising) (servedPhase_setDomain _ _ _) (fun _ => ?_) nofun
    simp [startRampUp, setDomain_states]

theorem RefreshLegal.after_startStandDown {s : State} (h : RefreshLegal s) (q : DomainRequest) : RefreshLegal (startStandDown q s) := by
  refine RefreshLegal.after_standDownAt (RefreshLegal.after_standDownAt ?_ _) _
  refine (refreshLegal_iff _).mpr ⟨h.accounts.with_domains _, h.powered, ?_⟩
  exact phaseAgrees_of_served (d := q.domain) (p := .standingDown) rfl nofun nofun

theorem RefreshLegal.after_powerComplete {s : State} (h : RefreshLegal s) (owner : Option OrderName) :
    RefreshLegal (powerComplete owner s) :=
  h.of_frame (by simp [SameBlocks])

theorem RefreshLegal.after_popRequest {s : State} (h : RefreshLegal s) : RefreshLegal (popRequest s) :=
  h.congr (sameLaw_with_domains _ rfl rfl)

theorem RefreshLegal.after_takeRequests {s : State} (h : RefreshLegal s) (fuel : Nat) : RefreshLegal (takeRequests fuel s) := by
  induction fuel generalizing s with
  | zero => exact h
  | succ fuel ih =>
    unfold takeRequests
    split
    · rename_i q _ _ _
      split
      · exact ih (h.after_popRequest.after_powerComplete _)
      · rename_i hstate
        split
        · rename_i hon
          exact h.after_popRequest.after_startRampUp q fun hd => hstate (by rw [hon]; exact hd)
        · exact h.after_popRequest.after_startStandDown q
    · exact h

theorem RefreshLegal.after_switchTakes {s : State} (h : RefreshLegal s) : RefreshLegal (switchTakes s) := h.after_takeRequests _

/-- The end of a ramp leaves the switch controller IDLE, so the phase of the ramp need not agree any more. -/
theorem refreshLegal_endRamp {s : State} (haccounts : AccountsBut [] s) (hpowered : RegionsPowered s) (v : Served) :
    RefreshLegal (endRamp v s) := by
  have hidle : RefreshLegal { s with domains := { s.domains with serving := none, rampTimer := none } } :=
    (refreshLegal_iff _).mpr ⟨haccounts.with_domains _, hpowered, nofun⟩
  exact (hidle.after_powerComplete _).after_switchTakes

/-- A bank that retains nothing takes power: its account is at rest in IDLE and in ASLEEP alike. -/
theorem AccountsBut.after_powerUpBank {due : List BankId} {s : State} {b : BankId} (h : AccountsBut due s)
    (hk : s.refresh.banks[b].k = 0) : AccountsBut due (powerUpBank b s) := by
  refine h.after_setBank ((h.accounts b).of_k_zero hk _) fun hmode => ?_
  have hrun : s.arrayMode.mode ≠ .run := fun hrun => by simp [hrun] at hmode
  simp [bankAwake, hrun]

/-- The state at the end of a ramp-up, before the arbiters decide (R169 2, R125, R152). -/
def rampedUp (d : DomainId) (s : State) : State :=
  domainBecomes d .dropped (powerUpBank (upperBank d) (powerUpBank (lowerBank d) (setDomain d .on s)))

theorem regionState_rampedUp (d : DomainId) (s : State) (r : RegionId) :
    regionState (rampedUp d s) r = if regionDomain r = d then .dropped else regionState s r := by
  rw [rampedUp, regionState_domainBecomes, regionState_of_regions (s := s) (by simp)]

section RampUp

variable {s : State} {d : DomainId} (h : RefreshLegal s) (hd : s.domains.states[d] ≠ .on)
include h hd

/-- A domain that is not ON retains nothing in either bank. -/
theorem RefreshLegal.k_zero_of_not_on {b : BankId} (hb : bankDomain b = d) : s.refresh.banks[b].k = 0 := by
  rw [h.accounts.counts b List.not_mem_nil]
  refine retainedCount_eq_zero fun r hr => ?_
  have hoff : regionState s r = .off := h.off_of_not_on hd (by rw [regionDomain, hr, hb])
  rw [hoff]
  rfl

theorem RefreshLegal.accounts_rampedUp : AccountsBut [] (rampedUp d s) := by
  have hon : AccountsBut [] (setDomain d .on s) := h.accounts.congr (sameAccounts_setDomain _ _ _)
  have hk : ∀ {b : BankId}, bankDomain b = d → (setDomain d .on s).refresh.banks[b].k = 0 := fun hb => by
    simp only [setDomain_frame]
    exact h.k_zero_of_not_on hd hb
  have hlower : bankDomain (lowerBank d) = d := by simp [bankDomain, lowerBank]
  have hupper : bankDomain (upperBank d) = d := Fin.ext (by simp only [bankDomain, upperBank]; omega)
  have hpower := (hon.after_powerUpBank (hk hlower)).after_powerUpBank (hk hupper)
  refine hpower.after_mapRegions [] _ fun r _ => ?_
  have hsame : regionState (powerUpBank (upperBank d) (powerUpBank (lowerBank d) (setDomain d .on s))) r = regionState s r :=
    regionState_of_regions (by simp) r
  split
  · rename_i hr
    rw [hsame, h.off_of_not_on hd (eq_of_beq hr)]
    rfl
  · rfl

end RampUp

theorem RefreshLegal.powered_rampedUp {s : State} (h : RefreshLegal s) (d : DomainId) : RegionsPowered (rampedUp d s) := by
  refine h.powered.after_domain (d := d) (st := .on) ?_ (fun _ _ => .inr rfl) fun r hr => ?_
  · simp [rampedUp, setDomain_states]
  · rw [regionState_rampedUp, if_neg hr]

/-- A domain in a ramp is not ON. -/
theorem RefreshLegal.not_on_of_serving {s : State} (h : RefreshLegal s) {v : Served} (hv : s.domains.serving = some v)
    (hphase : v.phase = .rising ∨ v.phase = .falling) : s.domains.states[v.domain] ≠ .on := by
  obtain ⟨hrising, hfalling⟩ := h.phase v hv
  rcases hphase with hp | hp
  · simp [hrising hp]
  · simp [hfalling hp]

theorem RefreshLegal.after_finishRampUp {s : State} (h : RefreshLegal s) {v : Served} (hv : s.domains.serving = some v)
    (hphase : v.phase = .rising) : RefreshLegal (finishRampUp v s) := by
  have hd := h.not_on_of_serving hv (.inl hphase)
  have hdecide := fun u => (sameLaw_bankDecide (lowerBank v.domain) u).trans (sameLaw_bankDecide (upperBank v.domain) _)
  exact refreshLegal_endRamp ((h.accounts_rampedUp hd).congr (hdecide _).toSameAccounts) ((hdecide _).powered (h.powered_rampedUp _)) v

theorem RefreshLegal.after_finishRampDown {s : State} (h : RefreshLegal s) {v : Served} (hv : s.domains.serving = some v)
    (hphase : v.phase = .falling) : RefreshLegal (finishRampDown v s) := by
  have hd := h.not_on_of_serving hv (.inr hphase)
  have hsame : ∀ r, regionState (setDomain v.domain .off s) r = regionState s r := regionState_of_regions (by simp)
  refine refreshLegal_endRamp (h.accounts.congr (sameAccounts_setDomain _ _ _)) ?_ v
  exact h.powered.after_domain (setDomain_states _ _ _) (fun r hr => .inl ((hsame r).trans (h.off_of_not_on hd hr))) fun r _ => hsame r

/-! ## Wake (R128, R176, R177) -/

theorem RefreshLegal.after_wakeBank {s : State} (h : RefreshLegal s) (hmode : s.arrayMode.mode = .run) (b : BankId) :
    RefreshLegal (wakeBank b s) := by
  unfold wakeBank
  split
  · refine h.of_accounts (h.accounts.after_setBank_setRefresh ?_ (wakeRefresh_k _ _) fun hasleep => ?_) (fun _ hr => hr) rfl
    · exact accountLegal_wakeRefresh _ _
    · simp [hmode] at hasleep
  · exact h

theorem RefreshLegal.after_wakeBanks {s : State} (h : RefreshLegal s) : RefreshLegal (wakeBanks s) := by
  have hrun := (h.after_mode { s.arrayMode with mode := .run, wakeTimer := none } (by simp)).after_requestHeaderUpdate
  unfold wakeBanks
  refine (List.foldlRecOn (motive := fun t => RefreshLegal t ∧ t.arrayMode.mode = .run) _ _ ⟨hrun, by simp⟩ ?_).1
  rintro t ⟨hlegal, hmode⟩ b -
  exact ⟨hlegal.after_wakeBank hmode b, by simp [hmode]⟩

theorem RefreshLegal.after_finishWake {s : State} (h : RefreshLegal s) : RefreshLegal (finishWake s) := by
  unfold finishWake
  split
  · refine RefreshLegal.after_startSleepEntry (RefreshLegal.after_wakeBanks ?_)
    exact h.of_frame (by simp [SameBlocks])
  · exact List.foldlRecOn _ _ h.after_wakeBanks fun t ht b _ => RefreshLegal.after_bankDecide ht b

/-! ## Start and admission of orders (R54, R78 to R82) -/

theorem RefreshLegal.after_toReporting {s : State} (h : RefreshLegal s) (l : Lane) (r : OrderResult) : RefreshLegal (toReporting l r s) :=
  h.of_frame (by simp [SameBlocks])

theorem RefreshLegal.after_lostSetFollow {s : State} (h : RefreshLegal s) (before : BitVec 64) : RefreshLegal (lostSetFollow before s) :=
  h.of_frame (by simp [SameBlocks])

theorem RefreshLegal.after_setGenerator {s : State} (h : RefreshLegal s) (l : Lane) (g : Option Generator) :
    RefreshLegal (setGenerator l g s) :=
  h.of_frame (by simp [SameBlocks])

theorem RefreshLegal.after_startDrop {s : State} (h : RefreshLegal s) (l : Lane) (f : Footprint) : RefreshLegal (startDrop l f s) := by
  unfold startDrop
  refine RefreshLegal.after_toReporting (RefreshLegal.after_lostSetFollow (h.after_handAllK_mapRegions _ fun r hr => ?_) _) l _
  have hstate : s.regions[r.val].state = .off := hr
  simp [hstate]

theorem RefreshLegal.after_startKeep {s : State} (h : RefreshLegal s) (l : Lane) (o : PoolOrder) (f : Footprint) :
    RefreshLegal (startKeep l o f s) := by
  unfold startKeep
  dsimp only
  split
  · exact h.of_frame (by simp [SameBlocks])
  · refine RefreshLegal.after_issueMore (RefreshLegal.after_setGenerator (RefreshLegal.after_lostSetFollow
      (h.after_handAllK_mapRegions _ fun r hr => ?_) _) l _) l
    have hstate : s.regions[r.val].state = .off := hr
    simp [armingListOf, hr, hstate]

theorem RefreshLegal.after_startPower {s : State} (h : RefreshLegal s) (l : Lane) (o : PoolOrder) : RefreshLegal (startPower l o s) := by
  unfold startPower
  split
  · exact h.of_frame (by simp [SameBlocks])
  · exact RefreshLegal.after_switchTakes (h.congr (sameLaw_with_domains _ rfl rfl))

theorem RefreshLegal.after_startOrder {s : State} (h : RefreshLegal s) (l : Lane) (o : PoolOrder) (k : OrderKind) (f : Footprint) :
    RefreshLegal (startOrder l o k f s) := by
  have hrunning : RefreshLegal (updateLane l (fun o => { o with life := .running }) (fun e => { e with wait := none, started := true }) s) :=
    h.of_frame (by simp [SameBlocks])
  unfold startOrder
  cases k with
  | load | fetch | copy | fill | scrub => exact RefreshLegal.after_issueMore (hrunning.of_frame (by simp [SameBlocks])) l
  | retain =>
    dsimp only
    split
    · exact hrunning.after_startKeep l o f
    · exact hrunning.after_startDrop l f
  | power => exact hrunning.after_startPower l o
  | mark => exact hrunning

theorem RefreshLegal.after_testOrder {s : State} (h : RefreshLegal s) (l : Lane) (o : PoolOrder) (k : OrderKind) (f : Footprint) :
    RefreshLegal (testOrder l o k f s) := by
  unfold testOrder
  split
  · exact h.of_frame (by simp [SameBlocks])
  · split
    · exact h.of_frame (by simp [SameBlocks])
    · split
      · exact h.after_startOrder l o k f
      · exact RefreshLegal.after_wakeFollow (h.of_frame (by simp [SameBlocks]))

theorem RefreshLegal.after_runStartTest {s : State} (h : RefreshLegal s) (l : Lane) : RefreshLegal (runStartTest l s) := by
  unfold runStartTest
  split
  · split
    · split
      · exact h.after_testOrder l _ _ _
      · exact h
    · exact h
  · exact h

theorem RefreshLegal.after_testLanes {s : State} (h : RefreshLegal s) : RefreshLegal (testLanes s) :=
  List.foldlRecOn _ _ h fun _ ht l _ => RefreshLegal.after_runStartTest ht l

theorem RefreshLegal.after_startTests {s : State} (h : RefreshLegal s) : RefreshLegal (startTests s) :=
  h.after_testLanes.after_testLanes.after_testLanes.after_testLanes

theorem RefreshLegal.after_enterTable {s : State} (h : RefreshLegal s) (l : Lane) (i : SlotId) (o : PoolOrder) :
    RefreshLegal (enterTable l i o s) := by
  unfold enterTable
  split
  · exact h.of_frame (by simp [SameBlocks])
  · exact h.of_frame (by simp [SameBlocks])
  · exact RefreshLegal.after_runStartTest (h.of_frame (by simp [SameBlocks])) l
  · exact h

theorem RefreshLegal.after_promote {s : State} (h : RefreshLegal s) (l : Lane) : RefreshLegal (promote l s) := by
  unfold promote
  split
  · split
    · split
      · dsimp only
        split
        · exact h.of_frame (by simp [SameBlocks])
        · exact RefreshLegal.after_enterTable (h.of_frame (by simp [SameBlocks])) _ _ _
      · exact h
    · exact h
  · exact h

/-! ## Cancel and halt (R60 to R64, R88, R193) -/

theorem RefreshLegal.after_withdrawRequest {s : State} (h : RefreshLegal s) (n : OrderName) : RefreshLegal (withdrawRequest n s) :=
  h.congr (sameLaw_with_domains _ rfl rfl)

theorem RefreshLegal.after_cancelRunning {s : State} (h : RefreshLegal s) (l : Lane) (o : PoolOrder) :
    RefreshLegal (cancelRunning l o s) := by
  unfold cancelRunning
  split
  · exact h.of_frame (by simp [SameBlocks])
  · refine RefreshLegal.after_toStopping (RefreshLegal.after_withdrawRequest ?_ _) _ _
    exact h.of_frame (by simp [SameBlocks])

theorem RefreshLegal.after_cancelTaken {s : State} (h : RefreshLegal s) (i : SlotId) (o : PoolOrder) :
    RefreshLegal (cancelTaken i o s) := by
  unfold cancelTaken
  cases o.life with
  | running => exact h.after_cancelRunning _ _
  | queued | waiting | stopping | reporting => exact h.of_frame (by simp [SameBlocks])

theorem RefreshLegal.after_cancelOrder {s : State} (h : RefreshLegal s) (q : Word) : RefreshLegal (cancelOrder q s) := by
  unfold cancelOrder
  split
  · exact h.of_frame (by simp [SameBlocks])
  · split
    · exact h.of_frame (by simp [SameBlocks])
    · split
      · exact h.of_frame (by simp [SameBlocks])
      · split
        · exact h.after_cancelTaken _ _
        · exact h.of_frame (by simp [SameBlocks])

theorem RefreshLegal.after_haltLane {s : State} (h : RefreshLegal s) (l : Lane) : RefreshLegal (haltLane l s) := by
  unfold haltLane
  split
  · exact h
  · split
    · exact (h.after_withdrawRequest _).after_toStopping l none
    · exact h

theorem RefreshLegal.after_haltOnReport {s : State} (h : RefreshLegal s) : RefreshLegal (haltOnReport s) :=
  List.foldlRecOn _ _ (h.of_frame (by simp [SameBlocks])) fun _ ht l _ => RefreshLegal.after_haltLane ht l

theorem RefreshLegal.after_accessFails {s : State} (h : RefreshLegal s) (r : Request) : RefreshLegal (accessFails r s) := by
  unfold accessFails
  cases r with
  | startRead | intakeRead => exact h.of_frame (by simp [SameBlocks])
  | result | estate | headerUpdate | release => exact h.after_haltOnReport
  | hostRead i | hostWrite i => exact h.after_dataFails i

end Sys2Proof.Safety
end

section
/-! PROOFS. Every step keeps the refresh law of R144: the commands one by one, and what the law says of a bank without power, asleep, waking or with nothing retained. -/

namespace Sys2Proof.Safety

open Sys2Proof.Machine

/-! ## What ends an event -/

theorem RefreshLegal.after_issueAccess {s : State} (h : RefreshLegal s) : RefreshLegal (issueAccess s) :=
  h.of_frame (by simp [SameBlocks])

/-- The start tests, the idle timer and the arbiter that follow an event's own effect keep the law. -/
theorem RefreshLegal.after_tableEvent {s : State} {f : State → State} (h : RefreshLegal (f s)) : RefreshLegal (tableEvent f s) := by
  have hretest : RefreshLegal (retestIfMoved s (f s)) := by
    unfold retestIfMoved
    split
    · exact h
    · exact h.after_startTests
  have hidle : RefreshLegal (idleFollow (retestIfMoved s (f s))) := hretest.of_frame (by simp [SameBlocks])
  exact hidle.after_issueAccess

/-- A response keeps the law if what acts on the access does. -/
theorem RefreshLegal.after_onResponse {s : State} (h : RefreshLegal s) (tag : Nat) (sort : Request → Bool) {f : Access → State → State}
    (hf : ∀ a t, RefreshLegal t → RefreshLegal (f a t)) : RefreshLegal (onResponse tag sort f s) := by
  unfold onResponse acceptResponse
  cases s.channel.outstanding with
  | none => exact h
  | some a =>
    dsimp only
    split
    · rename_i heq
      split at heq
      · cases heq
        exact RefreshLegal.after_tableEvent (hf _ _ (h.of_frame (by simp [SameBlocks])))
      · cases heq
    · exact h

theorem RefreshLegal.after_failResponse {s : State} (h : RefreshLegal s) (tag : Nat) (sort : Request → Bool) :
    RefreshLegal (failResponse tag sort s) :=
  h.after_onResponse tag sort fun a _ ht => ht.after_accessFails a.request

/-! ## Resets (R194) -/

theorem refreshLegal_reset : RefreshLegal State.reset := by
  refine (refreshLegal_iff _).mpr ⟨⟨fun b => ?_, ?_, nofun⟩, fun r hr => ?_, nofun⟩
  · have hrest : ∀ b : BankId, State.reset.refresh.banks[b].account = 0 ∧ State.reset.refresh.banks[b].timer = none := by decide
    exact accountLegal_of_rest _ (hrest b).1 (hrest b).2
  · decide
  · have hoff : ∀ r, regionState State.reset r = .off := by decide
    exact absurd (hoff r) hr

theorem RefreshLegal.after_dropAllArming {s : State} (h : RefreshLegal s) : RefreshLegal (dropAllArming s) := by
  unfold dropAllArming
  split
  · refine h.after_handAllK_mapRegions _ fun r hr => ?_
    have hstate : s.regions[r.val].state = .off := hr
    simp [hstate]
  · exact h

theorem RefreshLegal.after_resetBlocks {s : State} (h : RefreshLegal s) : RefreshLegal (resetBlocks s) := by
  refine RefreshLegal.after_dropAllArming (h.congr ?_)
  refine { awake := fun b => ?_, accounts := rfl, mode := rfl, retained := fun _ => rfl, off := fun _ => Iff.rfl, states := rfl, served := ?_ }
  · simp [bankAwake, abandonRequests]
  · simp [servedPhase, abandonRamps, Function.comp_def]

theorem RefreshLegal.after_engineReset {s : State} (h : RefreshLegal s) : RefreshLegal (engineReset s) := by
  have hport : RefreshLegal { s with port := engineResetPort s.port } := h.of_frame (by simp [SameBlocks])
  exact hport.after_resetBlocks.of_frame (by simp [SameBlocks, engineReset])

theorem RefreshLegal.after_pinReset {s : State} (h : RefreshLegal s) : RefreshLegal (pinReset s) := by
  have hport : RefreshLegal { s with port := { PortRegs.reset with resetHeld := true }, engine := EngineRegs.reset } :=
    h.of_frame (by simp [SameBlocks])
  have hblocks := hport.after_resetBlocks
  unfold pinReset forceSleep
  split
  · exact hblocks.after_startSleepEntry
  · exact hblocks
  · exact hblocks
  · exact hblocks.of_frame (by simp [SameBlocks])

/-! ## The System Port and the intake -/

theorem RefreshLegal.after_writeControl {s : State} (h : RefreshLegal s) (v : Word) : RefreshLegal (writeControl v s) := by
  unfold writeControl
  split
  · exact h
  · split
    · exact h.after_engineReset
    · exact h.of_frame (by simp [SameBlocks])

theorem RefreshLegal.after_nudgeIntake {s : State} (h : RefreshLegal s) : RefreshLegal (nudgeIntake s) :=
  h.of_frame (by simp [SameBlocks])

theorem RefreshLegal.after_pollExpires {s : State} (h : RefreshLegal s) : RefreshLegal (pollExpires s) := by
  have hqueue : RefreshLegal (queueRead .tally s) := h.of_frame (by simp [SameBlocks])
  rcases pollExpires_cases s with heq | ⟨heq, -⟩ | ⟨heq, -⟩
  · rwa [heq]
  · rwa [heq]
  · rw [heq]
    exact hqueue.after_issueAccess

theorem RefreshLegal.after_expire {s : State} (h : RefreshLegal s) (a : Access) : RefreshLegal (expire a s) := by
  unfold expire
  cases a.stage with
  | first => exact h.of_frame (by simp [SameBlocks])
  | reissued => exact RefreshLegal.after_tableEvent (RefreshLegal.after_accessFails (h.of_frame (by simp [SameBlocks])) _)

/-- The completion of an intake read keeps the law if what acts on its result does. -/
theorem RefreshLegal.after_readComplete {s : State} (h : RefreshLegal s) (tag : Nat) (step : ReadStep) {f : State → State}
    (hf : ∀ t, RefreshLegal t → RefreshLegal (f t)) : RefreshLegal (readComplete tag step f s) := by
  refine h.after_onResponse tag _ fun _ t ht => ?_
  have hresult : RefreshLegal (intakeResult f t) := by
    unfold intakeResult
    split
    · exact ht.of_frame (by simp [SameBlocks])
    · exact hf t ht
  exact hresult.of_frame (by simp [SameBlocks])

theorem RefreshLegal.after_takeOrder {s : State} (h : RefreshLegal s) (e : EntryWords) : RefreshLegal (takeOrder e s) := by
  unfold takeOrder
  split
  · rename_i i _
    have htaken : RefreshLegal { s with pool := takePool e i s, intake := takeIntake s.intake } := h.of_frame (by simp [SameBlocks])
    exact (htaken.after_promote e.lane).of_frame (by simp [SameBlocks])
  · exact h

theorem RefreshLegal.after_entryDone {s : State} (h : RefreshLegal s) (e : EntryWords) : RefreshLegal (entryDone e s) := by
  unfold entryDone
  split
  · exact h.after_takeOrder e
  · exact h.of_frame (by simp [SameBlocks])

theorem RefreshLegal.after_finishOrder {s : State} (h : RefreshLegal s) (i : SlotId) (o : PoolOrder) :
    RefreshLegal (finishOrder i o s) := by
  have hleft : RefreshLegal (setEntry o.entry.lane none (requestHeaderUpdate (leavePool i o s))) := h.of_frame (by simp [SameBlocks])
  exact (hleft.after_promote o.entry.lane).of_frame (by simp [SameBlocks, finishOrder])

theorem RefreshLegal.after_estateDone {s : State} (h : RefreshLegal s) (a : Access) : RefreshLegal (estateDone a s) := by
  unfold estateDone
  split
  · exact h
  · split
    · rename_i i _ _ o _
      exact (h.after_finishOrder i o).of_frame (by simp [SameBlocks])
    · exact h

/-! ## Banks (R115, R124, R136, R137) -/

theorem RefreshLegal.after_openDone {s : State} (h : RefreshLegal s) {b : BankId} (hstate : s.banks[b].state = .opening) :
    RefreshLegal (openDone b s) := by
  refine RefreshLegal.after_closeOrDecide (h.after_setBank ?_) b
  rw [bankAwake_of_state (st := .opened) rfl (by simp), bankAwake_of_state hstate (by simp)]

theorem RefreshLegal.after_accessDone {s : State} (h : RefreshLegal s) {b : BankId} (hstate : s.banks[b].state = .accessing)
    (q : BankRequest) (fresh : LineDisturbance) : RefreshLegal (accessDone b q fresh s) := by
  have hcells : RefreshLegal { s with array := accessCells b q fresh s.array } := h.of_frame (by simp [SameBlocks])
  refine RefreshLegal.after_closeOrDecide (RefreshLegal.after_handResult (hcells.after_setBank ?_) _ _ _) b
  rw [bankAwake_of_state (st := .opened) rfl (by simp), bankAwake_of_state hstate (by simp)]

theorem RefreshLegal.after_closeDone {s : State} (h : RefreshLegal s) {b : BankId} (hstate : s.banks[b].state = .closing) :
    RefreshLegal (closeDone b s) := by
  refine RefreshLegal.after_restOrDecide (h.after_setBank ?_) b
  rw [bankAwake_of_state (st := .idle) rfl (by simp), bankAwake_of_state hstate (by simp)]

theorem RefreshLegal.after_refreshDone {s : State} (h : RefreshLegal s) {b : BankId} (hstate : s.banks[b].state = .refreshing) :
    RefreshLegal (refreshDone b s) := by
  have hawake : bankAwake s.banks[b] = true := bankAwake_of_state hstate (by simp)
  have haccount : AccountLegal true s.refresh.banks[b] := hawake ▸ h.accounts.accounts b
  refine RefreshLegal.after_restOrDecide (h.of_accounts (h.accounts.after_setBank_setRefresh ?_ (accountRefreshed_k _) fun hmode => ?_)
    (fun _ hr => hr) rfl) b
  · rw [bankAwake_of_state (st := .idle) rfl (by simp)]
    exact accountLegal_accountRefreshed haccount
  · exact absurd (hawake.symm.trans (h.accounts.sleep hmode b)) (by decide)

theorem RefreshLegal.after_tickRaise {s : State} (h : RefreshLegal s) {b : BankId} (htimer : s.refresh.banks[b].timer.isSome = true)
    (hlow : s.refresh.banks[b].account < Config.accountCeiling) : RefreshLegal (tickRaise b s) :=
  (h.after_setRefresh (accountLegal_raiseAccount _ (h.accounts.accounts b) htimer hlow) rfl).after_indicationChanged _ b

theorem RefreshLegal.after_stopOwner {s : State} (h : RefreshLegal s) (n : OrderName) : RefreshLegal (stopOwner s n) := by
  unfold stopOwner
  split
  · exact h.after_toStopping _ _
  · exact h

/-- A breach takes the retained regions of its bank to LOST and hands the bank a k of 0. -/
theorem RefreshLegal.after_handK_loseRegions {s : State} (h : RefreshLegal s) (b : BankId) : RefreshLegal (handK b (loseRegions b s)) := by
  have hlost : AccountsBut [b] (loseRegions b s) := h.accounts.after_mapRegions [b] _ fun r hr => by
    rw [if_neg (by simp_all)]
    rfl
  refine h.of_accounts hlost.after_handK (fun r hr => ?_) (by simp)
  rw [regionState_of_regions (s := loseRegions b s) (by simp), loseRegions, regionState_mapRegions]
  have hstate : s.regions[r.val].state = .off := hr
  simp [hstate, RegionState.retained]

theorem RefreshLegal.after_breach {s : State} (h : RefreshLegal s) (b : BankId) : RefreshLegal (breach b s) := by
  have hcounted : RefreshLegal (requestHeaderUpdate (countBreach (handK b (loseRegions b s)))) :=
    (h.after_handK_loseRegions b).of_frame (by simp [SameBlocks, countBreach])
  exact List.foldlRecOn _ _ hcounted fun _ ht n _ => RefreshLegal.after_stopOwner ht n

theorem RefreshLegal.after_tickBank {s : State} (h : RefreshLegal s) {b : BankId} (htimer : s.refresh.banks[b].timer.isSome = true) :
    RefreshLegal (tickBank b s) := by
  unfold tickBank
  split
  · exact h.after_tickRaise htimer ‹_›
  · exact h.after_breach b

theorem RefreshLegal.after_changeClass {s : State} (h : RefreshLegal s) (c : TempClass) : RefreshLegal (changeClass c s) :=
  h.of_frame (by simp [SameBlocks, changeClass])

/-- The ramp's end acts on the request served in its phase. -/
theorem RefreshLegal.after_onRamp {s : State} (h : RefreshLegal s) (phase : SwitchPhase) {f : Served → State → State}
    (hf : ∀ v, s.domains.serving = some v → v.phase = phase → RefreshLegal (f v s)) : RefreshLegal (onRamp phase f s) := by
  unfold onRamp
  split
  · rename_i v hv
    split
    · rename_i hramp
      exact RefreshLegal.after_tableEvent (hf v hv hramp.1)
    · exact h
  · exact h

/-! ## Every command keeps the law -/

theorem RefreshLegal.ite {p : Prop} [Decidable p] {s t : State} (hp : p → RefreshLegal s) (hn : ¬p → RefreshLegal t) :
    RefreshLegal (if p then s else t) := by
  split
  · exact hp ‹_›
  · exact hn ‹_›

theorem RefreshLegal.after_exec {s : State} (h : RefreshLegal s) (i : Instr) : ∃ t, exec i s = .next t ∧ RefreshLegal t := by
  cases i with
  | powerOnReset => exact ⟨_, rfl, refreshLegal_reset.of_frame (by simp [SameBlocks])⟩
  | pinReset => exact ⟨_, rfl, .ite (fun _ => h) fun _ => h.after_pinReset⟩
  | resetNRelease => exact ⟨_, rfl, h.of_frame (by simp [SameBlocks])⟩
  | engineReset | engineEnable | engineDisable | pollSet | idleSleepSet | responseSet => exact ⟨_, rfl, h.after_writeControl _⟩
  | exbaseWrite => exact ⟨_, rfl, .ite (fun _ => h) fun _ => h.of_frame (by simp [SameBlocks])⟩
  | nudge => exact ⟨_, rfl, .ite (fun _ => h) fun _ => h.after_nudgeIntake.after_issueAccess⟩
  | cancel q => exact ⟨_, rfl, .ite (fun _ => h) fun _ => .after_tableEvent (h.after_cancelOrder q)⟩
  | eventsWrite => exact ⟨_, rfl, .ite (fun _ => h) fun _ => h.of_frame (by simp [SameBlocks])⟩
  | registerWriteOther | staleResponseDiscard => exact ⟨_, rfl, h⟩
  | pollTimerExpiry => exact ⟨_, rfl, h.after_pollExpires⟩
  | accessIssue => exact ⟨_, rfl, h.after_issueAccess⟩
  | responseLimitExpiry =>
    refine ⟨_, rfl, ?_⟩
    split
    · exact h.after_expire _
    · exact h
  | startReadComplete tag _ page => exact ⟨_, rfl, h.after_onResponse tag _ fun _ _ ht => ht.of_frame (by simp [SameBlocks])⟩
  | startReadFail tag | intakeReadFail tag | reportAccessFail tag | dataAccessFail tag => exact ⟨_, rfl, h.after_failResponse tag _⟩
  | tallyReadComplete tag | nextReadComplete tag | firstSeqReadComplete tag =>
    exact ⟨_, rfl, h.after_readComplete tag _ fun _ ht => ht.of_frame (by simp [SameBlocks])⟩
  | entryReadComplete tag e => exact ⟨_, rfl, h.after_readComplete tag _ fun _ ht => ht.after_entryDone e⟩
  | stalledPoolEnd | stalledPagesEnd | releaseRequest | engineDrained => exact ⟨_, rfl, h.of_frame (by simp [SameBlocks])⟩
  | resultWriteComplete tag | headerUpdateComplete tag | releaseWriteComplete tag =>
    exact ⟨_, rfl, h.after_onResponse tag _ fun _ _ ht => ht.of_frame (by simp [SameBlocks])⟩
  | estateWriteComplete tag => exact ⟨_, rfl, h.after_onResponse tag _ fun a _ ht => ht.after_estateDone a⟩
  | promotion l => exact ⟨_, rfl, .after_tableEvent (h.after_promote l)⟩
  | startTest l => exact ⟨_, rfl, .after_tableEvent (h.after_runStartTest l)⟩
  | markFinish l => exact ⟨_, rfl, .after_tableEvent (h.of_frame (by simp [SameBlocks]))⟩
  | stoppingEnd l => exact ⟨_, rfl, .after_tableEvent (h.after_endTest l)⟩
  | bufferGrant => exact ⟨_, rfl, .after_tableEvent h.after_grants⟩
  | strokeIssue l => exact ⟨_, rfl, .after_tableEvent (h.after_issueOne l)⟩
  | loadHostReadComplete tag data => exact ⟨_, rfl, h.after_onResponse tag _ fun a _ ht => ht.after_hostReadDone data a⟩
  | fetchHostWriteComplete tag => exact ⟨_, rfl, h.after_onResponse tag _ fun a _ ht => ht.after_hostWriteDone a⟩
  | bankArbiterDecision b => exact ⟨_, rfl, h.after_bankDecide b⟩
  | bankOpenComplete b => exact ⟨_, rfl, .ite (fun hstate => h.after_openDone hstate) fun _ => h⟩
  | bankAccessComplete b disturbed =>
    refine ⟨_, rfl, ?_⟩
    split
    · exact .after_tableEvent (h.after_accessDone ‹_› _ disturbed)
    · exact h
  | bankCloseComplete b => exact ⟨_, rfl, .ite (fun hstate => .after_tableEvent (h.after_closeDone hstate)) fun _ => h⟩
  | refreshComplete b => exact ⟨_, rfl, .ite (fun hstate => .after_tableEvent (h.after_refreshDone hstate)) fun _ => h⟩
  | tick due =>
    refine ⟨_, rfl, .ite (fun hruns => .after_tableEvent (h.after_tickBank ?_)) fun _ => h⟩
    rw [tickRuns, Bool.and_eq_true] at hruns
    exact hruns.1
  | sampleTimerExpiry c => exact ⟨_, rfl, .ite (fun _ => (h.after_changeClass c).after_issueAccess) fun _ => h⟩
  | switchTake => exact ⟨_, rfl, .after_tableEvent h.after_switchTakes⟩
  | rampUpComplete => exact ⟨_, rfl, h.after_onRamp .rising fun _ hv hphase => h.after_finishRampUp hv hphase⟩
  | drainStart => exact ⟨_, rfl, .after_tableEvent h.after_drainTest⟩
  | rampDownComplete => exact ⟨_, rfl, h.after_onRamp .falling fun _ hv hphase => h.after_finishRampDown hv hphase⟩
  | idleTimerExpiry => exact ⟨_, rfl, .ite (fun _ => .after_tableEvent h.after_startSleepEntry) fun _ => h⟩
  | sleepEntryComplete => exact ⟨_, rfl, .after_tableEvent h.after_sleepEntryTest⟩
  | wakeTimerExpiry => exact ⟨_, rfl, .ite (fun _ => .after_tableEvent h.after_finishWake.after_startTests) fun _ => h⟩

/-- A step takes the front command from the queue, which the law does not look at, and executes it. -/
theorem RefreshLegal.after_step {s t : State} (h : RefreshLegal s) (hstep : step s = .next t) : RefreshLegal t := by
  unfold step at hstep
  split at hstep
  · cases hstep
    exact h
  · rename_i i rest _
    have hrest : RefreshLegal { s with pending := rest } := h.of_frame (by simp [SameBlocks])
    obtain ⟨u, hu, hlegal⟩ := hrest.after_exec i
    cases hu.symm.trans hstep
    exact hlegal

/-! ## What the law says of one account -/

theorem RefreshLegal.account_zero {s : State} (h : RefreshLegal s) {b : BankId}
    (hrest : s.refresh.banks[b].k = 0 ∨ bankAwake s.banks[b] = false) : s.refresh.banks[b].account = 0 := by
  obtain ⟨-, -, hzero⟩ := h.accounts.accounts b
  exact (hzero hrest).1

theorem retained_eq_false_iff (st : RegionState) : st.retained = false ↔ st ≠ .kept ∧ st ≠ .arming := by
  cases st <;> decide

/-- Settles O58: the law goes through every command, and it puts the account at 0 by the bank's power, by the sleep of all banks in WAKING, or by a k of 0. -/
theorem stepKeepsRefreshLaw : Obligations.StepKeepsRefreshLaw := by
  refine ⟨fun s t h hstep => h.after_step hstep, fun s b h => ?_⟩
  obtain ⟨hfloor, hceiling, -⟩ := h.accounts.accounts b
  refine ⟨hfloor, hceiling, ?_⟩
  rintro (hpower | hasleep | hwaking | hnone)
  · exact h.account_zero (.inr (by simp [bankAwake, show s.banks[b.val].state = .unpowered from hpower]))
  · exact h.account_zero (.inr (by simp [bankAwake, show s.banks[b.val].state = .asleep from hasleep]))
  · exact h.account_zero (.inr (h.accounts.sleep (.inr hwaking) b))
  · refine h.account_zero (.inl ?_)
    rw [h.accounts.counts b List.not_mem_nil]
    exact retainedCount_eq_zero fun r hr => (retained_eq_false_iff _).mpr (hnone r hr)

end Sys2Proof.Safety
end

section
/-! PROOFS. Every command answers a next state and leaves the waiting commands alone; every command keeps the array's cells in canonical form. -/

namespace Sys2Proof.Safety

open Sys2Proof.Machine

/-! ## Responses -/

/-- A response either awaits the outstanding access, which then ends and is acted on, or has no effect. -/
theorem onResponse_cases (tag : Nat) (sort : Request → Bool) (f : Access → State → State) (s : State) :
    onResponse tag sort f s = s
      ∨ ∃ a, s.channel.outstanding = some a ∧ a.tag = tag ∧ sort a.request = true
          ∧ onResponse tag sort f s = settle (freed s) (f a (freed s)) := by
  cases hout : s.channel.outstanding with
  | none => exact .inl (onResponse_stale sort f (by simp [hout]))
  | some a =>
    by_cases htag : a.tag = tag
    · cases hsort : sort a.request with
      | true =>
        obtain ⟨b, hb, -, heq⟩ := onResponse_awaited f (tag := tag) ⟨a, hout, htag, rfl⟩ hsort
        cases hout.symm.trans hb
        exact .inr ⟨a, rfl, htag, hsort, heq⟩
      | false => exact .inl (by simp [onResponse, acceptResponse, hout, hsort])
    · refine .inl (onResponse_stale sort f fun b hb => ?_)
      cases hout.symm.trans hb
      exact htag

@[simp] theorem settle_pending (s u : State) : (settle s u).pending = u.pending := by simp [settle]

theorem onResponse_pending {f : Access → State → State} (h : ∀ a t, (f a t).pending = t.pending) (tag : Nat) (sort : Request → Bool)
    (s : State) : (onResponse tag sort f s).pending = s.pending := by
  rcases onResponse_cases tag sort f s with heq | ⟨a, -, -, -, heq⟩
  · rw [heq]
  · rw [heq, settle_pending, h]
    rfl

theorem readComplete_pending {f : State → State} (h : ∀ t, (f t).pending = t.pending) (tag : Nat) (step : ReadStep) (s : State) :
    (readComplete tag step f s).pending = s.pending := by
  refine onResponse_pending (fun _ t => ?_) tag _ s
  unfold intakeResult
  split <;> simp [h]

theorem failResponse_pending (tag : Nat) (sort : Request → Bool) (s : State) : (failResponse tag sort s).pending = s.pending :=
  onResponse_pending (by simp) tag sort s

theorem pollExpires_pending (s : State) : (pollExpires s).pending = s.pending := by
  rcases pollExpires_cases s with heq | ⟨heq, -⟩ | ⟨heq, -⟩ <;> simp [heq]

theorem expire_pending (a : Access) (s : State) : (expire a s).pending = s.pending := by
  unfold expire
  cases a.stage <;> simp

theorem tableEvent_pending {f : State → State} {s : State} (h : (f s).pending = s.pending) : (tableEvent f s).pending = s.pending :=
  (settle_pending s (f s)).trans h

theorem onRamp_pending {f : Served → State → State} (h : ∀ v t, (f v t).pending = t.pending) (phase : SwitchPhase) (s : State) :
    (onRamp phase f s).pending = s.pending := by
  unfold onRamp
  split
  · split
    · exact tableEvent_pending (h _ _)
    · rfl
  · rfl

theorem ite_pending {p : Prop} [Decidable p] {s t u : State} (ht : t.pending = s.pending) (hu : u.pending = s.pending) :
    (if p then t else u).pending = s.pending := by
  split <;> assumption

/-- Settles O2: the arm of each command answers `.next` by its definition, and its effect leaves the queue by the frames of its operations. -/
theorem everyCommandAnswersNext : Obligations.EveryCommandAnswersNext := by
  intro c s
  cases c with
  | powerOnReset => exact ⟨_, rfl, rfl⟩
  | pinReset => exact ⟨_, rfl, ite_pending rfl (by simp)⟩
  | resetNRelease => exact ⟨_, rfl, rfl⟩
  | engineReset | engineEnable | engineDisable | pollSet | idleSleepSet | responseSet => exact ⟨_, rfl, by simp⟩
  | exbaseWrite => exact ⟨_, rfl, ite_pending rfl rfl⟩
  | nudge => exact ⟨_, rfl, ite_pending rfl (by simp)⟩
  | cancel => exact ⟨_, rfl, ite_pending rfl (tableEvent_pending (by simp))⟩
  | eventsWrite => exact ⟨_, rfl, ite_pending rfl rfl⟩
  | registerWriteOther | staleResponseDiscard => exact ⟨_, rfl, rfl⟩
  | pollTimerExpiry => exact ⟨_, rfl, pollExpires_pending s⟩
  | accessIssue | stalledPoolEnd | stalledPagesEnd | releaseRequest | engineDrained => exact ⟨_, rfl, by simp⟩
  | responseLimitExpiry =>
    refine ⟨_, rfl, ?_⟩
    split
    · exact expire_pending _ s
    · rfl
  | startReadComplete | resultWriteComplete | estateWriteComplete | headerUpdateComplete | releaseWriteComplete | loadHostReadComplete
  | fetchHostWriteComplete => exact ⟨_, rfl, onResponse_pending (by simp) _ _ s⟩
  | startReadFail | intakeReadFail | reportAccessFail | dataAccessFail => exact ⟨_, rfl, failResponse_pending _ _ s⟩
  | tallyReadComplete | nextReadComplete | firstSeqReadComplete | entryReadComplete =>
    exact ⟨_, rfl, readComplete_pending (by simp) _ _ s⟩
  | promotion | startTest | markFinish | stoppingEnd | bufferGrant | strokeIssue | switchTake | drainStart | sleepEntryComplete =>
    exact ⟨_, rfl, tableEvent_pending (by simp)⟩
  | bankArbiterDecision => exact ⟨_, rfl, by simp⟩
  | bankOpenComplete => exact ⟨_, rfl, ite_pending (by simp) rfl⟩
  | bankAccessComplete =>
    refine ⟨_, rfl, ?_⟩
    split
    · exact tableEvent_pending (by simp)
    · rfl
  | bankCloseComplete | refreshComplete | tick | idleTimerExpiry | wakeTimerExpiry =>
    exact ⟨_, rfl, ite_pending (tableEvent_pending (by simp)) rfl⟩
  | sampleTimerExpiry => exact ⟨_, rfl, ite_pending (by simp) rfl⟩
  | rampUpComplete | rampDownComplete => exact ⟨_, rfl, onRamp_pending (by simp) _ s⟩

end Sys2Proof.Safety
end

section
/-! PROOFS. The invariants that every step keeps, as one relation between two states: it is reflexive and transitive, so what an event keeps is proved operation by operation. -/

namespace Sys2Proof.Safety

open Sys2Proof.Machine

/-! ## The relation -/

/-- The timers of the array mode run only in their modes (R173, R174). -/
def ModeTimersLegal (m : ModeLogic) : Prop := (m.idleTimer.isSome → m.mode = .run) ∧ (m.wakeTimer.isSome ↔ m.mode = .waking)

/-- The fields of the intake that the invariants look at. -/
def intakeView (i : Intake) : IntakeState × Bool × Option ReadStep × Nat × Option Nat × Word :=
  (i.state, i.readAbandoned, i.failedStep, i.records.length, i.pollTimer, i.expected)

/-- The engine, the intake and its requests are the same (R23, R185). -/
structure SameReads (s t : State) : Prop where
  engine : t.engine = s.engine
  intake : intakeView t.intake = intakeView s.intake
  outstanding : (t.channel.outstanding.map (·.request)).filter Request.isIntake = (s.channel.outstanding.map (·.request)).filter Request.isIntake
  reads : t.channel.queue.filter Request.isIntake = s.channel.queue.filter Request.isIntake

/-- What no event of the table or of the array side changes: the engine, the intake, its requests and the counts of the pool. -/
structure SameCounts (s t : State) : Prop extends SameReads s t where
  taken : t.pool.taken = s.pool.taken
  finished : t.pool.finished = s.pool.finished
  occupied : occupied t = occupied s

/-- Beside them, the cancel list is the same. -/
structure SameIntakeSide (s t : State) : Prop extends SameReads s t where
  taken : t.pool.taken = s.pool.taken
  finished : t.pool.finished = s.pool.finished
  cancels : t.pool.cancelList = s.pool.cancelList
  occupied : occupied t = occupied s

theorem SameIntakeSide.toSameCounts {s t : State} (h : SameIntakeSide s t) : SameCounts s t :=
  ⟨h.toSameReads, h.taken, h.finished, h.occupied⟩

/-- The invariants of cells, header flag, cancel list, timers, strokes in flight, places, generators and interlock pass from `s` to `t`; the last two with the places they rest on. -/
structure KeepsCore (s t : State) : Prop where
  cells : MemoryCanonical s → MemoryCanonical t
  header : HeaderFlagAgrees s → HeaderFlagAgrees t
  cancels : CancelListLegal s → CancelListLegal t
  timers : TimersLegal s → TimersLegal t
  flight : FlightCapped s → FlightCapped t
  placed : OrdersPlaced s → OrdersPlaced t
  generators : OrdersPlaced s → GeneratorsRun s → GeneratorsRun t
  interlock : OrdersPlaced s → InterlockHolds s → InterlockHolds t

/-- Beside them, the intake and the pool's counts are the same. -/
structure KeepsOrders (s t : State) : Prop extends KeepsCore s t where
  side : SameCounts s t

/-- What an event of the table or of the array side keeps. -/
structure Keeps (s t : State) : Prop extends KeepsOrders s t where
  stood : StandDownReported s → StandDownReported t

theorem SameReads.refl (s : State) : SameReads s s := ⟨rfl, rfl, rfl, rfl⟩

theorem SameReads.trans {s t u : State} (h : SameReads s t) (k : SameReads t u) : SameReads s u :=
  ⟨k.engine.trans h.engine, k.intake.trans h.intake, k.outstanding.trans h.outstanding, k.reads.trans h.reads⟩

theorem SameIntakeSide.refl (s : State) : SameIntakeSide s s := ⟨.refl s, rfl, rfl, rfl, rfl⟩

theorem SameCounts.refl (s : State) : SameCounts s s := ⟨.refl s, rfl, rfl, rfl⟩

theorem SameCounts.trans {s t u : State} (h : SameCounts s t) (k : SameCounts t u) : SameCounts s u :=
  ⟨h.toSameReads.trans k.toSameReads, k.taken.trans h.taken, k.finished.trans h.finished, k.occupied.trans h.occupied⟩

theorem KeepsCore.refl (s : State) : KeepsCore s s := ⟨id, id, id, id, id, id, fun _ => id, fun _ => id⟩

theorem KeepsCore.trans {s t u : State} (h : KeepsCore s t) (k : KeepsCore t u) : KeepsCore s u where
  cells := k.cells ∘ h.cells
  header := k.header ∘ h.header
  cancels := k.cancels ∘ h.cancels
  timers := k.timers ∘ h.timers
  flight := k.flight ∘ h.flight
  placed := k.placed ∘ h.placed
  generators hp := k.generators (h.placed hp) ∘ h.generators hp
  interlock hp := k.interlock (h.placed hp) ∘ h.interlock hp

theorem KeepsOrders.refl (s : State) : KeepsOrders s s := ⟨.refl s, .refl s⟩

theorem KeepsOrders.trans {s t u : State} (h : KeepsOrders s t) (k : KeepsOrders t u) : KeepsOrders s u :=
  ⟨h.toKeepsCore.trans k.toKeepsCore, h.side.trans k.side⟩

theorem Keeps.refl (s : State) : Keeps s s := ⟨.refl s, id⟩

theorem Keeps.trans {s t u : State} (h : Keeps s t) (k : Keeps t u) : Keeps s u := ⟨h.toKeepsOrders.trans k.toKeepsOrders, k.stood ∘ h.stood⟩

theorem Keeps.ite {p : Prop} [Decidable p] {s t u : State} (ht : p → Keeps s t) (hu : ¬p → Keeps s u) : Keeps s (if p then t else u) := by
  split
  · exact ht ‹_›
  · exact hu ‹_›

/-- A fold of operations that each keep the invariants keeps them. -/
theorem Keeps.foldl {α : Type} {f : State → α → State} (h : ∀ t a, Keeps t (f t a)) (l : List α) (s : State) : Keeps s (l.foldl f s) := by
  induction l generalizing s with
  | nil => exact .refl s
  | cons a l ih => exact (h s a).trans (ih (f s a))

/-! ## What the invariants look at -/

theorem requested_iff {s : State} {r : Request} (hr : r.isIntake = true) : Requested s r ↔
    r ∈ s.channel.queue.filter Request.isIntake ∨ r ∈ (s.channel.outstanding.map (·.request)).filter Request.isIntake := by
  simp [Requested, hr, Option.filter_eq_some_iff]

theorem SameReads.requested {s t : State} (h : SameReads s t) {r : Request} (hr : r.isIntake = true) : Requested t r ↔ Requested s r := by
  rw [requested_iff hr, requested_iff hr, h.reads, h.outstanding]

theorem intakeOutstanding_eq (s : State) :
    intakeOutstanding s = ((s.channel.outstanding.map (·.request)).filter Request.isIntake).isSome := by
  unfold intakeOutstanding
  cases s.channel.outstanding with
  | none => rfl
  | some a => cases h : a.request.isIntake <;> simp [Option.filter, h]

theorem SameReads.intakeOutstanding {s t : State} (h : SameReads s t) : intakeOutstanding t = intakeOutstanding s := by
  rw [intakeOutstanding_eq, intakeOutstanding_eq, h.outstanding]

theorem SameReads.requests {s t : State} (h : SameReads s t) : intakeRequests t = intakeRequests s := by
  simp only [intakeRequests, List.countP_eq_length_filter, h.reads, h.intakeOutstanding]

theorem engineLive_congr {s t : State} (h : t.engine = s.engine) : engineLive t = engineLive s := by
  simp only [engineLive, engineIs, h]

theorem SameReads.intakeLegal {s t : State} (h : SameReads s t) (hs : IntakeLegal s) : IntakeLegal t := by
  have hread (step : ReadStep) : Requested t (.intakeRead step) ↔ Requested s (.intakeRead step) := h.requested rfl
  have hstart : Requested t .startRead ↔ Requested s .startRead := h.requested rfl
  have hintake := h.intake
  simp only [intakeView, Prod.mk.injEq] at hintake
  obtain ⟨hstate, habandoned, hfailed, hrecords, -⟩ := hintake
  simpa only [IntakeLegal, h.requests, hread, hstart, h.engine, hstate, habandoned, hfailed, hrecords, engineLive_congr h.engine,
    h.intakeOutstanding] using hs

theorem SameCounts.poolAgrees {s t : State} (h : SameCounts s t) (hs : PoolAgrees s) : PoolAgrees t := by
  simpa only [PoolAgrees, h.occupied, h.taken, h.finished, h.engine] using hs

theorem SameReads.timers {s t : State} (h : SameReads s t) (hmode : ModeTimersLegal s.arrayMode → ModeTimersLegal t.arrayMode)
    (hs : TimersLegal s) : TimersLegal t := by
  obtain ⟨hpoll, hidle, hwake⟩ := hs
  obtain ⟨hidle, hwake⟩ := hmode ⟨hidle, hwake⟩
  have hintake := h.intake
  simp only [intakeView, Prod.mk.injEq] at hintake
  obtain ⟨hstate, -, -, -, htimer, -⟩ := hintake
  exact ⟨by rwa [hstate, htimer], hidle, hwake⟩

theorem SameCounts.countsAgree {s t : State} (h : SameCounts s t) (hs : CountsAgree s) : CountsAgree t := by
  have hintake := h.intake
  simp only [intakeView, Prod.mk.injEq] at hintake
  obtain ⟨-, -, -, -, -, hexpected⟩ := hintake
  rwa [CountsAgree, hexpected, h.taken]

theorem SameIntakeSide.cancelsLegal {s t : State} (h : SameIntakeSide s t) (hs : CancelListLegal s) : CancelListLegal t := by
  simpa only [CancelListLegal, h.cancels] using hs

/-- The orders and what the master channel holds of them are the same: pool, table, generators, requests. -/
def SameOrderSide (s t : State) : Prop :=
  t.pool.slots = s.pool.slots ∧ t.pool.queues = s.pool.queues ∧ t.table = s.table ∧ t.strokes.generators = s.strokes.generators
    ∧ t.channel.queue = s.channel.queue ∧ t.channel.outstanding = s.channel.outstanding
    ∧ t.reporting.headerPending = s.reporting.headerPending

/-- Beside the orders, the engine, the intake and the pool's counts are the same. -/
def SameControl (s t : State) : Prop :=
  SameOrderSide s t ∧ t.engine = s.engine ∧ t.intake = s.intake ∧ t.pool.taken = s.pool.taken ∧ t.pool.finished = s.pool.finished
    ∧ t.pool.cancelList = s.pool.cancelList

theorem SameControl.orderSide {s t : State} (h : SameControl s t) : SameOrderSide s t := h.1

theorem SameControl.intakeSide {s t : State} (h : SameControl s t) : SameIntakeSide s t := by
  obtain ⟨⟨hslots, -, -, -, hqueue, hout, -⟩, hengine, hintake, htaken, hfinished, hcancels⟩ := h
  exact ⟨⟨hengine, by rw [hintake], by rw [hout], by rw [hqueue]⟩, htaken, hfinished, hcancels, by rw [occupied, occupied, hslots]⟩

theorem slotOrder_congr {s t : State} (h : t.pool.slots = s.pool.slots) (i : SlotId) : slotOrder t i = slotOrder s i := by
  rw [slotOrder, slotOrder, h]

theorem laneEntry_congr {s t : State} (h : t.table = s.table) (l : Lane) : laneEntry t l = laneEntry s l := by
  rw [laneEntry, laneEntry, h]

theorem reportWrites_of_channel {s t : State} (hqueue : t.channel.queue = s.channel.queue)
    (hout : t.channel.outstanding = s.channel.outstanding) (i : SlotId) : reportWrites t i = reportWrites s i := by
  rw [reportWrites, reportWrites, hqueue, hout]

theorem SameOrderSide.ordersPlaced {s t : State} (h : SameOrderSide s t) (hs : OrdersPlaced s) : OrdersPlaced t := by
  obtain ⟨hslots, hqueues, htable, -, hqueue, hout, -⟩ := h
  simpa only [OrdersPlaced, slotOrder_congr hslots, laneEntry_congr htable, hqueues, reportWrites_of_channel hqueue hout] using hs

theorem SameOrderSide.generatorsRun {s t : State} (h : SameOrderSide s t) (hs : GeneratorsRun s) : GeneratorsRun t := by
  obtain ⟨hslots, -, htable, hgenerators, -⟩ := h
  simpa only [GeneratorsRun, laneOrder_congr hslots htable, hgenerators] using hs

theorem SameOrderSide.interlockHolds {s t : State} (h : SameOrderSide s t) (hs : InterlockHolds s) : InterlockHolds t := by
  obtain ⟨hslots, -, htable, -⟩ := h
  simpa only [InterlockHolds, AtWork, slotOrder_congr hslots, laneEntry_congr htable] using hs

theorem SameOrderSide.headerAgrees {s t : State} (h : SameOrderSide s t) (hs : HeaderFlagAgrees s) : HeaderFlagAgrees t := by
  obtain ⟨-, -, -, -, hqueue, -, hpending⟩ := h
  simpa only [HeaderFlagAgrees, hqueue, hpending] using hs

theorem inFlight_congr {s t : State} (h : t.strokes.records = s.strokes.records) (l : Lane) : inFlight t l = inFlight s l := by
  rw [inFlight, inFlight, strokesOf, strokesOf, h]

/-! ## Banks at rest stood down (R126, R170) -/

/-- The bank has come to rest with a stand-down set. -/
def RestsStoodDown (k : Bank) : Prop := k.standDown = true ∧ (k.state = .idle ∨ k.state = .asleep)

/-- No bank newly rests stood down. -/
def RestsKept (s t : State) : Prop := ∀ b : BankId, RestsStoodDown t.banks[b] → RestsStoodDown s.banks[b]

theorem RestsKept.of_banks {s t : State} (h : t.banks = s.banks) : RestsKept s t := fun b => by
  rw [h]
  exact id

theorem RestsKept.trans {s t u : State} (h : RestsKept s t) (k : RestsKept t u) : RestsKept s u := fun b => h b ∘ k b

theorem RestsKept.foldl {α : Type} {f : State → α → State} (h : ∀ t a, RestsKept t (f t a)) (l : List α) (s : State) :
    RestsKept s (l.foldl f s) := by
  induction l generalizing s with
  | nil => exact fun _ => id
  | cons a l ih => exact (h s a).trans (ih (f s a))

theorem RestsKept.setBank {s : State} {b : BankId} {k : Bank} (h : RestsStoodDown k → RestsStoodDown s.banks[b]) :
    RestsKept s (setBank b k s) := by
  intro c
  rw [setBank_banks]
  by_cases hc : c = b
  · subst hc
    rw [getElem_set_same]
    exact h
  · rw [getElem_set_other _ _ _ _ hc]
    exact id

theorem decideOpen_standDown (level : RefreshLevel) (k : Bank) : (decideOpen level k).standDown = k.standDown := by
  unfold decideOpen
  dsimp only
  (repeat' split) <;> rfl

theorem decideIdle_standDown (level : RefreshLevel) (pullIn : Bool) (g : Option RowGroup) (k : Bank) :
    (decideIdle level pullIn g k).standDown = k.standDown := by
  unfold decideIdle
  (repeat' split) <;> rfl

theorem decide1_standDown (i : RefreshLevel × Bool) (g : Option RowGroup) (k : Bank) : (decide1 i g k).standDown = k.standDown := by
  unfold decide1
  split
  · rfl
  · cases k.state with
    | idle => exact decideIdle_standDown _ _ _ _
    | opened => exact decideOpen_standDown _ _
    | unpowered | asleep | opening | accessing | closing | refreshing => rfl

/-- An arbiter's decision leaves a bank that stands down as it is. -/
theorem restsStoodDown_of_decide1 {i : RefreshLevel × Bool} {g : Option RowGroup} {k : Bank} (h : RestsStoodDown (decide1 i g k)) :
    RestsStoodDown k := by
  obtain ⟨hdown, hstate⟩ := h
  rw [decide1_standDown] at hdown
  have hself : decide1 i g k = k := by simp [decide1, hdown]
  exact ⟨hdown, by rwa [hself] at hstate⟩

theorem restsKept_bankDecide (b : BankId) (s : State) : RestsKept s (bankDecide b s) := .setBank restsStoodDown_of_decide1

theorem restsKept_indicationChanged (i : RefreshLevel × Bool) (b : BankId) (s : State) : RestsKept s (indicationChanged i b s) := by
  unfold indicationChanged
  split
  · exact fun _ => id
  · exact restsKept_bankDecide b s

theorem restsKept_handK (b : BankId) (s : State) : RestsKept s (handK b s) := by
  refine RestsKept.trans (.of_banks ?_) (restsKept_indicationChanged _ b _)
  rfl

theorem restsKept_handAllK (s : State) : RestsKept s (handAllK s) := .foldl (fun t b => restsKept_handK b t) _ s

theorem restsKept_joinBank (b : BankId) (q : BankRequest) (s : State) : RestsKept s (joinBank b q s) :=
  .trans (.setBank (by exact id)) (restsKept_bankDecide b _)

theorem standDownReported_of_rests {s t : State} (hserving : t.domains.serving = s.domains.serving) (hrests : RestsKept s t)
    (hs : StandDownReported s) : StandDownReported t := by
  intro v hv hphase
  obtain ⟨hboth, hreported⟩ := hs v (hserving ▸ hv) hphase
  refine ⟨hboth, fun b hb hdown hstate => ?_⟩
  obtain ⟨hdown, hstate⟩ := hrests b ⟨hdown, hstate⟩
  exact hreported b hb hdown hstate

/-- No domain stands down once the switch controller is IDLE or in another phase. -/
theorem standDownReported_of_phase {s : State} (h : ∀ v, s.domains.serving = some v → v.phase ≠ .standingDown) : StandDownReported s :=
  fun v hv hphase => absurd hphase (h v hv)

/-! ## Operations that leave the orders alone -/

theorem KeepsOrders.of_control {s t : State} (h : SameControl s t) (hflight : FlightCapped s → FlightCapped t)
    (hcells : MemoryCanonical s → MemoryCanonical t) (hmode : ModeTimersLegal s.arrayMode → ModeTimersLegal t.arrayMode) :
    KeepsOrders s t where
  cells := hcells
  header := h.orderSide.headerAgrees
  cancels := h.intakeSide.cancelsLegal
  timers := h.intakeSide.timers hmode
  flight := hflight
  placed := h.orderSide.ordersPlaced
  generators _ := h.orderSide.generatorsRun
  interlock _ := h.orderSide.interlockHolds
  side := h.intakeSide.toSameCounts

/-- The strokes in flight, the cells and the array mode are the same. -/
def SameCells (s t : State) : Prop := t.strokes.records = s.strokes.records ∧ t.array = s.array ∧ t.arrayMode = s.arrayMode

theorem SameCells.flight {s t : State} (h : SameCells s t) (hs : FlightCapped s) : FlightCapped t := fun l => by
  rw [inFlight_congr h.1]
  exact hs l

/-- An operation on banks, accounts, regions and domains keeps the invariants if no bank newly rests stood down. -/
theorem Keeps.of_banks {s t : State} (h : SameControl s t) (hcells : SameCells s t) (hserving : t.domains.serving = s.domains.serving)
    (hrests : RestsKept s t) : Keeps s t where
  toKeepsOrders := by
    refine .of_control h hcells.flight (fun hs => ?_) fun hs => ?_
    · rwa [MemoryCanonical, hcells.2.1]
    · rwa [hcells.2.2]
  stood := standDownReported_of_rests hserving hrests

/-- An operation that writes nothing the invariants look at keeps them. -/
theorem Keeps.of_same {s t : State} (h : SameControl s t) (hcells : SameCells s t)
    (hdomains : t.domains.serving = s.domains.serving ∧ t.banks = s.banks) : Keeps s t :=
  .of_banks h hcells hdomains.1 (.of_banks hdomains.2)

theorem Keeps.after_bankDecide (b : BankId) (s : State) : Keeps s (bankDecide b s) :=
  .of_banks (by simp [SameControl, SameOrderSide]) (by simp [SameCells]) (by simp) (restsKept_bankDecide b s)

theorem Keeps.after_handAllK (s : State) : Keeps s (handAllK s) :=
  .of_banks (by simp [SameControl, SameOrderSide]) (by simp [SameCells]) (by simp) (restsKept_handAllK s)

theorem Keeps.after_mapRegions (f : RegionId → Region → Region) (s : State) : Keeps s (mapRegions f s) :=
  .of_same (by simp [SameControl, SameOrderSide]) (by simp [SameCells]) (by simp)

theorem Keeps.after_dropArming (n : OrderName) (s : State) : Keeps s (dropArming n s) :=
  .ite (fun _ => (Keeps.after_mapRegions _ s).trans (.after_handAllK _)) fun _ => .refl s

theorem Keeps.after_joinBank (b : BankId) (q : BankRequest) (s : State) : Keeps s (joinBank b q s) :=
  .of_banks (by simp [SameControl, SameOrderSide]) (by simp [SameCells]) (by simp) (restsKept_joinBank b q s)

/-- The Stroke Engine's records and buffers change, of no lane more than four strokes newly in flight. -/
theorem Keeps.of_strokes {s : State} (x : StrokeEngine) (hgenerators : x.generators = s.strokes.generators)
    (hflight : ∀ l, inFlight { s with strokes := x } l ≤ max 4 (inFlight s l)) : Keeps s { s with strokes := x } where
  toKeepsOrders := by
    refine .of_control (by simp [SameControl, SameOrderSide, hgenerators]) (fun hs l => ?_) id id
    exact Nat.le_trans (hflight l) (Nat.max_le.mpr ⟨Nat.le_refl 4, hs l⟩)
  stood := standDownReported_of_rests rfl (.of_banks rfl)

/-! ## Requests that are no read of the intake -/

/-- A request of a stroke or of the header joins the queue. -/
theorem Keeps.of_queue {s t : State} (hside : SameIntakeSide s t) (hheader : HeaderFlagAgrees s → HeaderFlagAgrees t)
    (hwrites : ∀ i, reportWrites t i = reportWrites s i) (horders : t.pool = s.pool ∧ t.table = s.table ∧ t.strokes = s.strokes)
    (harray : t.array = s.array ∧ t.arrayMode = s.arrayMode ∧ t.domains = s.domains ∧ t.banks = s.banks) : Keeps s t := by
  obtain ⟨hpool, htable, hstrokes⟩ := horders
  obtain ⟨hcells, hmode, hdomains, hbanks⟩ := harray
  have hslots : t.pool.slots = s.pool.slots := by rw [hpool]
  exact
    { cells := fun hs => by rwa [MemoryCanonical, hcells]
      header := hheader
      cancels := hside.cancelsLegal
      timers := hside.timers (by rw [hmode]; exact id)
      flight := fun hs l => Nat.le_trans (Nat.le_of_eq (inFlight_congr (by rw [hstrokes]) l)) (hs l)
      placed := fun hs => by
        simpa only [OrdersPlaced, slotOrder_congr hslots, laneEntry_congr htable, hpool, hwrites] using hs
      generators := fun _ hs => by simpa only [GeneratorsRun, laneOrder_congr hslots htable, hstrokes] using hs
      interlock := fun _ hs => by simpa only [InterlockHolds, AtWork, slotOrder_congr hslots, laneEntry_congr htable] using hs
      side := hside.toSameCounts
      stood := standDownReported_of_rests (by rw [hdomains]) (.of_banks hbanks) }

theorem sameIntakeSide_placeRequest {r : Request} (hr : r.isIntake = false) (s : State) : SameIntakeSide s (placeRequest r s) where
  engine := rfl
  intake := rfl
  outstanding := rfl
  reads := by simp [hr]
  taken := rfl
  finished := rfl
  cancels := rfl
  occupied := rfl

theorem headerFlagAgrees_placeRequest {s : State} {r : Request} (hr : r ≠ .headerUpdate) (h : HeaderFlagAgrees s) :
    HeaderFlagAgrees (placeRequest r s) := by
  simpa [HeaderFlagAgrees, List.count_append, List.count_singleton, hr] using h

/-- A stroke's request joins the queue. -/
theorem Keeps.after_dataRequest {r : Request} (hr : r.dataStroke.isSome = true) (s : State) : Keeps s (placeRequest r s) := by
  have hkind : r.isIntake = false ∧ r ≠ .headerUpdate ∧ ∀ i, r ≠ .result i ∧ r ≠ .estate i := by
    cases r <;> simp_all [Request.dataStroke, Request.isIntake]
  obtain ⟨hintake, hheader, hwrite⟩ := hkind
  refine .of_queue (sameIntakeSide_placeRequest hintake s) (headerFlagAgrees_placeRequest hheader) (fun i => ?_) (by simp) (by simp)
  simp [reportWrites_placeRequest, hwrite i]

theorem headerFlagAgrees_requestHeaderUpdate {s : State} (h : HeaderFlagAgrees s) : HeaderFlagAgrees (requestHeaderUpdate s) := by
  unfold requestHeaderUpdate
  split
  · rename_i hask
    have hclear : s.reporting.headerPending = false := by simp_all
    simp only [HeaderFlagAgrees, hclear] at h
    simp_all [HeaderFlagAgrees, List.count_append]
  · exact h

theorem reads_requestHeaderUpdate (s : State) :
    (requestHeaderUpdate s).channel.queue.filter Request.isIntake = s.channel.queue.filter Request.isIntake := by
  unfold requestHeaderUpdate
  split <;> simp [Request.isIntake]

theorem Keeps.after_requestHeaderUpdate (s : State) : Keeps s (requestHeaderUpdate s) := by
  refine .of_queue ?_ headerFlagAgrees_requestHeaderUpdate (by simp) (by simp) (by simp)
  exact ⟨⟨by simp, by simp, by simp, reads_requestHeaderUpdate s⟩, by simp, by simp, by simp, by simp [occupied]⟩

theorem Keeps.after_lostSetFollow (before : BitVec 64) (s : State) : Keeps s (lostSetFollow before s) :=
  .ite (fun _ => .refl s) fun _ => .after_requestHeaderUpdate s

end Sys2Proof.Safety
end

section
/-! PROOFS. The orders in their places (R51, R54, R70) and the interlock (R77) under a change of one lane: what enters REPORTING, stops, starts, or is only noted. -/

namespace Sys2Proof.Safety

open Sys2Proof.Machine

/-! ## What the places say -/

theorem OrdersPlaced.entry_order {s : State} (h : OrdersPlaced s) {l : Lane} {e : TableEntry} (he : laneEntry s l = some e) :
    ∃ o, slotOrder s e.slot = some o ∧ o.entry.lane = l ∧ o.life ≠ .queued := h.1 l e he

theorem OrdersPlaced.queue_nodup {s : State} (h : OrdersPlaced s) (l : Lane) : s.pool.queues[l].Nodup := (h.2.1 l).1

theorem OrdersPlaced.queue_order {s : State} (h : OrdersPlaced s) {l : Lane} {i : SlotId} (hi : i ∈ s.pool.queues[l]) :
    ∃ o, slotOrder s i = some o ∧ o.entry.lane = l ∧ o.life = .queued := (h.2.1 l).2 i hi

theorem OrdersPlaced.queued {s : State} (h : OrdersPlaced s) {i : SlotId} {o : PoolOrder} {l : Lane} (ho : slotOrder s i = some o)
    (hlife : o.life = .queued) (hlane : o.entry.lane = l) : i ∈ s.pool.queues[l] := by
  subst hlane
  exact h.2.2.1 i o ho hlife

theorem OrdersPlaced.held {s : State} (h : OrdersPlaced s) {i : SlotId} {o : PoolOrder} (ho : slotOrder s i = some o)
    (hlife : o.life ≠ .queued) : ∃ e, laneEntry s o.entry.lane = some e ∧ e.slot = i := h.2.2.2.1 i o ho hlife

theorem OrdersPlaced.writes_le {s : State} (h : OrdersPlaced s) (i : SlotId) : reportWrites s i ≤ 1 := (h.2.2.2.2 i).1

theorem OrdersPlaced.write_reporting {s : State} (h : OrdersPlaced s) {i : SlotId} (hi : reportWrites s i = 1) :
    ∃ o, slotOrder s i = some o ∧ o.life = .reporting := (h.2.2.2.2 i).2 hi

/-- No reporting write waits for an order that is not in REPORTING. -/
theorem OrdersPlaced.writes_zero {s : State} (h : OrdersPlaced s) {i : SlotId}
    (hi : ∀ o, slotOrder s i = some o → o.life ≠ .reporting) : reportWrites s i = 0 := by
  have hle := h.writes_le i
  refine Decidable.byContradiction fun hne => ?_
  obtain ⟨o, ho, hlife⟩ := h.write_reporting (i := i) (by omega)
  exact hi o ho hlife

theorem laneOrder_of_entry {s : State} {l : Lane} {e : TableEntry} (he : laneEntry s l = some e) : laneOrder s l = slotOrder s e.slot := by
  simp [laneOrder, he]

theorem laneOrder_eq_some {s : State} {l : Lane} {o : PoolOrder} (h : laneOrder s l = some o) :
    ∃ e, laneEntry s l = some e ∧ slotOrder s e.slot = some o := Option.bind_eq_some_iff.mp h

/-- Two lanes' entries hold two slots. -/
theorem OrdersPlaced.slot_ne {s : State} (h : OrdersPlaced s) {l m : Lane} {d e : TableEntry} (hd : laneEntry s l = some d)
    (he : laneEntry s m = some e) (hne : l ≠ m) : d.slot ≠ e.slot := by
  intro hslot
  obtain ⟨x, hx, hxl, -⟩ := h.entry_order hd
  obtain ⟨y, hy, hym, -⟩ := h.entry_order he
  rw [hslot, hy] at hx
  cases hx
  exact hne (hxl.symm.trans hym)

/-- Every lane with an entry holds an order. -/
theorem OrdersPlaced.order_of_entry {s : State} (h : OrdersPlaced s) {l : Lane} {e : TableEntry} (he : laneEntry s l = some e) :
    ∃ o, slotOrder s e.slot = some o ∧ laneOrder s l = some o := by
  obtain ⟨o, ho, -⟩ := h.entry_order he
  exact ⟨o, ho, (laneOrder_of_entry he).trans ho⟩

/-! ## Occupied slots -/

theorem vector_countP_eq {α : Type} {n : Nat} (v : Vector α n) (p : α → Bool) :
    v.toList.countP p = (List.finRange n).countP fun i => p v[i] := by
  have hlist : v.toList = (List.finRange n).map fun i => v[i] := by
    apply List.ext_getElem <;> simp
  rw [hlist, List.countP_map]
  rfl

theorem occupied_eq (s : State) : occupied s = (List.finRange 16).countP fun i => (slotOrder s i).isSome :=
  vector_countP_eq s.pool.slots Option.isSome

theorem occupied_congr {s t : State} (h : ∀ i, (slotOrder t i).isSome = (slotOrder s i).isSome) : occupied t = occupied s := by
  simp only [occupied_eq, h]

/-! ## The table's part of the invariants -/

/-- The invariants of the orders' places pass to `t`, its orders being placed. -/
structure KeepsTable (s t : State) : Prop where
  placed : OrdersPlaced t
  generators : GeneratorsRun s → GeneratorsRun t
  interlock : InterlockHolds s → InterlockHolds t

/-- What lies beside the table: cells, strokes in flight, mode, domains and banks are the same. -/
def SameArea (s t : State) : Prop := SameCells s t ∧ t.domains.serving = s.domains.serving ∧ t.banks = s.banks

theorem Keeps.of_table {s t : State} (hside : SameIntakeSide s t) (hheader : HeaderFlagAgrees s → HeaderFlagAgrees t)
    (harea : SameArea s t) (htable : OrdersPlaced s → KeepsTable s t) : Keeps s t := by
  obtain ⟨hcells, hserving, hbanks⟩ := harea
  exact
    { cells := fun hs => by rwa [MemoryCanonical, hcells.2.1]
      header := hheader
      cancels := hside.cancelsLegal
      timers := hside.timers (by rw [hcells.2.2]; exact id)
      flight := hcells.flight
      placed := fun hs => (htable hs).placed
      generators := fun hs => (htable hs).generators
      interlock := fun hs => (htable hs).interlock
      side := hside.toSameCounts
      stood := standDownReported_of_rests hserving (.of_banks hbanks) }

/-- An order at work: RUNNING or STOPPING. -/
def IsAtWork (x : Lifecycle) : Prop := x = .running ∨ x = .stopping

/-! ## A change of one lane -/

/-- From `s` to `t` the entry of lane `l` goes from `e` to `e'` and its order from `o` to `o'`; no other slot, entry or queue changes. -/
structure LaneStep (s t : State) (l : Lane) (e e' : TableEntry) (o o' : PoolOrder) : Prop where
  entry : laneEntry s l = some e
  order : slotOrder s e.slot = some o
  slots : ∀ i, slotOrder t i = if i = e.slot then some o' else slotOrder s i
  table : ∀ m, laneEntry t m = if m = l then some e' else laneEntry s m
  queues : t.pool.queues = s.pool.queues
  slot : e'.slot = e.slot
  same : o'.entry = o.entry
  life : o.life ≠ .queued → o'.life ≠ .queued

theorem updateLane_queues (l : Lane) (f : PoolOrder → PoolOrder) (g : TableEntry → TableEntry) (s : State) :
    (updateLane l f g s).pool.queues = s.pool.queues := by
  unfold updateLane
  split
  · rfl
  · split <;> rfl

theorem updateLane_laneStep {s : State} {l : Lane} {e : TableEntry} {o : PoolOrder} {f : PoolOrder → PoolOrder}
    {g : TableEntry → TableEntry} (he : laneEntry s l = some e) (ho : slotOrder s e.slot = some o) (hslot : (g e).slot = e.slot)
    (hentry : (f o).entry = o.entry) (hlife : o.life ≠ .queued → (f o).life ≠ .queued) :
    LaneStep s (updateLane l f g s) l e (g e) o (f o) := by
  obtain ⟨hslots, htable⟩ := updateLane_held (f := f) (g := g) he ho
  exact ⟨he, ho, hslots, htable, updateLane_queues l f g s, hslot, hentry, hlife⟩

theorem updateLane_isSome (l : Lane) (f : PoolOrder → PoolOrder) (g : TableEntry → TableEntry) (s : State) (i : SlotId) :
    (slotOrder (updateLane l f g s) i).isSome = (slotOrder s i).isSome := by
  cases ho : laneOrder s l with
  | none => rw [updateLane_empty ho]
  | some o =>
    obtain ⟨e, he, ho⟩ := laneOrder_eq_some ho
    rw [(updateLane_held he ho).1]
    split
    · rename_i hi
      rw [hi, ho]
      rfl
    · rfl

section LaneStep

variable {s t : State} {l : Lane} {e e' : TableEntry} {o o' : PoolOrder}

theorem LaneStep.congr {u : State} (h : LaneStep s t l e e' o o') (hpool : u.pool = t.pool) (htable : u.table = t.table) :
    LaneStep s u l e e' o o' where
  entry := h.entry
  order := h.order
  slots i := (slotOrder_congr (by rw [hpool]) i).trans (h.slots i)
  table m := (laneEntry_congr htable m).trans (h.table m)
  queues := by rw [hpool, h.queues]
  slot := h.slot
  same := h.same
  life := h.life

theorem LaneStep.slot_same (h : LaneStep s t l e e' o o') : slotOrder t e.slot = some o' := by rw [h.slots, if_pos rfl]

theorem LaneStep.entry_same (h : LaneStep s t l e e' o o') : laneEntry t l = some e' := by rw [h.table, if_pos rfl]

theorem LaneStep.order_same (h : LaneStep s t l e e' o o') : laneOrder t l = some o' := by
  rw [laneOrder_of_entry h.entry_same, h.slot, h.slot_same]

theorem LaneStep.not_queued (h : LaneStep s t l e e' o o') (hs : OrdersPlaced s) : o.entry.lane = l ∧ o.life ≠ .queued ∧ o'.life ≠ .queued := by
  obtain ⟨x, hx, hlane, hlife⟩ := hs.entry_order h.entry
  cases hx.symm.trans h.order
  exact ⟨hlane, hlife, h.life hlife⟩

theorem LaneStep.entry_other (h : LaneStep s t l e e' o o') {m : Lane} (hm : m ≠ l) : laneEntry t m = laneEntry s m := by
  rw [h.table, if_neg hm]

/-- Another lane's entry holds another slot, so its order is as before. -/
theorem LaneStep.slot_other (h : LaneStep s t l e e' o o') (hs : OrdersPlaced s) {m : Lane} {d : TableEntry} (hm : m ≠ l)
    (hd : laneEntry s m = some d) : slotOrder t d.slot = slotOrder s d.slot := by
  rw [h.slots, if_neg (hs.slot_ne hd h.entry hm)]

theorem LaneStep.order_other (h : LaneStep s t l e e' o o') (hs : OrdersPlaced s) {m : Lane} (hm : m ≠ l) :
    laneOrder t m = laneOrder s m := by
  unfold laneOrder
  rw [h.entry_other hm]
  cases hd : laneEntry s m with
  | none => rfl
  | some d => exact h.slot_other hs hm hd

theorem LaneStep.placed (h : LaneStep s t l e e' o o') (hs : OrdersPlaced s)
    (hwrites : ∀ i, reportWrites t i ≤ 1 ∧ (reportWrites t i = 1 → ∃ x, slotOrder t i = some x ∧ x.life = .reporting)) : OrdersPlaced t := by
  obtain ⟨hlane, hlife, hlife'⟩ := h.not_queued hs
  refine ⟨fun m d hd => ?_, fun m => ?_, fun i x hx hqueued => ?_, fun i x hx hheld => ?_, hwrites⟩
  · by_cases hm : m = l
    · subst hm
      cases hd.symm.trans h.entry_same
      exact ⟨o', h.slot ▸ h.slot_same, h.same ▸ hlane, hlife'⟩
    · rw [h.entry_other hm] at hd
      rw [h.slot_other hs hm hd]
      exact hs.entry_order hd
  · rw [h.queues]
    refine ⟨hs.queue_nodup m, fun i hi => ?_⟩
    obtain ⟨x, hx, hxlane, hqueued⟩ := hs.queue_order hi
    refine ⟨x, ?_, hxlane, hqueued⟩
    rw [h.slots, if_neg, hx]
    rintro rfl
    cases hx.symm.trans h.order
    exact hlife hqueued
  · rw [h.slots] at hx
    split at hx
    · cases hx
      exact absurd hqueued hlife'
    · rw [h.queues]
      exact hs.queued hx hqueued rfl
  · rw [h.slots] at hx
    split at hx
    · rename_i hi
      cases hx
      refine ⟨e', ?_, h.slot.trans hi.symm⟩
      rw [h.same, hlane]
      exact h.entry_same
    · rename_i hi
      obtain ⟨d, hd, hslot⟩ := hs.held hx hheld
      refine ⟨d, ?_, hslot⟩
      rw [h.entry_other, hd]
      intro hm
      rw [hm, h.entry] at hd
      cases hd
      exact hi hslot.symm

theorem LaneStep.generatorsRun (h : LaneStep s t l e e' o o') (hs : OrdersPlaced s)
    (hother : ∀ m : Lane, m ≠ l → t.strokes.generators[m] = s.strokes.generators[m])
    (hlane : ∀ g, t.strokes.generators[l] = some g → IsAtWork o'.life ∧ (g.issuing = true → o'.life = .running)) (hgen : GeneratorsRun s) :
    GeneratorsRun t := by
  intro m g hg
  by_cases hm : m = l
  · subst hm
    obtain ⟨hwork, hissuing⟩ := hlane g hg
    exact ⟨o', h.order_same, hwork, hissuing⟩
  · obtain ⟨x, hx, hrest⟩ := hgen m g ((hother m hm).symm.trans hg)
    exact ⟨x, (h.order_other hs hm).trans hx, hrest⟩

/-- The order at work in another lane is the same before and after. -/
theorem LaneStep.atWork_other (h : LaneStep s t l e e' o o') (hs : OrdersPlaced s) {m : Lane} {d : TableEntry} {y : PoolOrder} (hm : m ≠ l)
    (hwork : AtWork t m d y) : AtWork s m d y := by
  obtain ⟨hd, hy, hlife⟩ := hwork
  rw [h.entry_other hm] at hd
  exact ⟨hd, (h.slot_other hs hm hd).symm.trans hy, hlife⟩

theorem LaneStep.atWork_same (h : LaneStep s t l e e' o o') {d : TableEntry} {y : PoolOrder} (hwork : AtWork t l d y) :
    d = e' ∧ y = o' ∧ IsAtWork o'.life := by
  obtain ⟨hd, hy, hlife⟩ := hwork
  cases hd.symm.trans h.entry_same
  rw [h.slot, h.slot_same] at hy
  cases hy
  exact ⟨rfl, rfl, hlife⟩

/-- The interlock holds after a change of one lane: its footprint stays or goes, and if its order is at work then, it has one that conflicts with no other at work. -/
theorem LaneStep.interlockHolds (h : LaneStep s t l e e' o o') (hs : OrdersPlaced s)
    (hfootprint : ∀ f, e'.footprint = some f → e.footprint = some f)
    (hwork : IsAtWork o'.life → e'.footprint ≠ none
      ∧ ∀ m d y f g, m ≠ l → AtWork s m d y → e'.footprint = some f → d.footprint = some g → f.conflicts g = false)
    (hlock : InterlockHolds s) : InterlockHolds t := by
  obtain ⟨howns, hhas, hclear⟩ := hlock
  refine ⟨fun m d x f hd hx hf => ?_, fun m d x hx => ?_, fun m n d c x y f g hne hx hy hf hg => ?_⟩
  · by_cases hm : m = l
    · subst hm
      cases hd.symm.trans h.entry_same
      rw [h.slot, h.slot_same] at hx
      cases hx
      obtain ⟨k, hk, heq⟩ := howns m e o f h.entry h.order (hfootprint f hf)
      exact ⟨k, by rw [PoolOrder.kind, h.same]; exact hk, by rw [h.same]; exact heq⟩
    · rw [h.entry_other hm] at hd
      exact howns m d x f hd ((h.slot_other hs hm hd).symm.trans hx) hf
  · by_cases hm : m = l
    · subst hm
      obtain ⟨rfl, rfl, hlife⟩ := h.atWork_same hx
      exact (hwork hlife).1
    · exact hhas m d x (h.atWork_other hs hm hx)
  · by_cases hm : m = l
    · subst hm
      obtain ⟨rfl, rfl, hlife⟩ := h.atWork_same hx
      exact (hwork hlife).2 n c y f g hne.symm (h.atWork_other hs hne.symm hy) hf hg
    · by_cases hn : n = l
      · subst hn
        obtain ⟨rfl, rfl, hlife⟩ := h.atWork_same hy
        rw [conflicts_comm]
        exact (hwork hlife).2 m d x g f hm (h.atWork_other hs hm hx) hg hf
      · exact hclear m n d c x y f g hne (h.atWork_other hs hm hx) (h.atWork_other hs hn hy) hf hg

/-- An order that was at work and keeps its footprint conflicts with no other at work. -/
theorem LaneStep.work_kept (h : LaneStep s t l e e' o o') (hlock : InterlockHolds s) (hbefore : IsAtWork o.life)
    (hfootprint : e'.footprint = e.footprint) : e'.footprint ≠ none
      ∧ ∀ m d y f g, m ≠ l → AtWork s m d y → e'.footprint = some f → d.footprint = some g → f.conflicts g = false := by
  obtain ⟨-, hhas, hclear⟩ := hlock
  have hwork : AtWork s l e o := ⟨h.entry, h.order, hbefore⟩
  rw [hfootprint]
  exact ⟨hhas l e o hwork, fun m d y f g hm hy hf hg => hclear l m e d o y f g hm.symm hwork hy hf hg⟩

end LaneStep

/-! ## Orders only noted -/

/-- The places look at an order's words and lifecycle state alone. -/
def orderView (o : PoolOrder) : EntryWords × Lifecycle := (o.entry, o.life)

/-- The places and the interlock look at an entry's slot and footprint alone. -/
def entryView (e : TableEntry) : SlotId × Option Footprint := (e.slot, e.footprint)

/-- Every slot and entry looks the same to the places and the interlock. -/
structure SameViews (s t : State) : Prop where
  slots : ∀ i, (slotOrder t i).map orderView = (slotOrder s i).map orderView
  table : ∀ m, (laneEntry t m).map entryView = (laneEntry s m).map entryView

theorem SameViews.symm {s t : State} (h : SameViews s t) : SameViews t s := ⟨fun i => (h.slots i).symm, fun m => (h.table m).symm⟩

theorem SameViews.slot {s t : State} (h : SameViews s t) {i : SlotId} {o : PoolOrder} (ho : slotOrder t i = some o) :
    ∃ x, slotOrder s i = some x ∧ x.entry = o.entry ∧ x.life = o.life := by
  have heq := h.slots i
  rw [ho, Option.map_some] at heq
  obtain ⟨x, hx, hview⟩ := Option.map_eq_some_iff.mp heq.symm
  exact ⟨x, hx, congrArg Prod.fst hview, congrArg Prod.snd hview⟩

theorem SameViews.entry {s t : State} (h : SameViews s t) {m : Lane} {e : TableEntry} (he : laneEntry t m = some e) :
    ∃ d, laneEntry s m = some d ∧ d.slot = e.slot ∧ d.footprint = e.footprint := by
  have heq := h.table m
  rw [he, Option.map_some] at heq
  obtain ⟨d, hd, hview⟩ := Option.map_eq_some_iff.mp heq.symm
  exact ⟨d, hd, congrArg Prod.fst hview, congrArg Prod.snd hview⟩

theorem SameViews.order {s t : State} (h : SameViews s t) {m : Lane} {o : PoolOrder} (ho : laneOrder t m = some o) :
    ∃ x, laneOrder s m = some x ∧ x.entry = o.entry ∧ x.life = o.life := by
  obtain ⟨e, he, hslot⟩ := laneOrder_eq_some ho
  obtain ⟨d, hd, heq, -⟩ := h.entry he
  obtain ⟨x, hx, hrest⟩ := h.slot hslot
  refine ⟨x, ?_, hrest⟩
  rw [laneOrder_of_entry hd, heq]
  exact hx

theorem SameViews.placed {s t : State} (h : SameViews s t) (hqueues : t.pool.queues = s.pool.queues)
    (hwrites : ∀ i, reportWrites t i = reportWrites s i) (hs : OrdersPlaced s) : OrdersPlaced t := by
  refine ⟨fun m e he => ?_, fun m => ?_, fun i o ho hlife => ?_, fun i o ho hlife => ?_, fun i => ?_⟩
  · obtain ⟨d, hd, hslot, -⟩ := h.entry he
    obtain ⟨x, hx, hlane, hlife⟩ := hs.entry_order hd
    obtain ⟨o, ho, hentry, hsame⟩ := h.symm.slot hx
    exact ⟨o, hslot ▸ ho, hentry ▸ hlane, hsame ▸ hlife⟩
  · rw [hqueues]
    refine ⟨hs.queue_nodup m, fun i hi => ?_⟩
    obtain ⟨x, hx, hlane, hlife⟩ := hs.queue_order hi
    obtain ⟨o, ho, hentry, hsame⟩ := h.symm.slot hx
    exact ⟨o, ho, hentry ▸ hlane, hsame ▸ hlife⟩
  · obtain ⟨x, hx, hentry, hsame⟩ := h.slot ho
    rw [hqueues]
    exact hs.queued hx (hsame.trans hlife) (by rw [hentry])
  · obtain ⟨x, hx, hentry, hsame⟩ := h.slot ho
    obtain ⟨d, hd, hslot⟩ := hs.held hx (hsame ▸ hlife)
    obtain ⟨e, he, heq, -⟩ := h.symm.entry hd
    exact ⟨e, hentry ▸ he, heq.trans hslot⟩
  · rw [hwrites i]
    refine ⟨hs.writes_le i, fun hi => ?_⟩
    obtain ⟨x, hx, hlife⟩ := hs.write_reporting hi
    obtain ⟨o, ho, -, hsame⟩ := h.symm.slot hx
    exact ⟨o, ho, hsame.trans hlife⟩

theorem SameViews.generatorsRun {s t : State} (h : SameViews s t)
    (hgenerators : ∀ (m : Lane) g, t.strokes.generators[m] = some g → ∃ x, s.strokes.generators[m] = some x ∧ (g.issuing = true → x.issuing = true))
    (hs : GeneratorsRun s) : GeneratorsRun t := by
  intro m g hg
  obtain ⟨x, hx, hissuing⟩ := hgenerators m g hg
  obtain ⟨o, ho, hwork, hrunning⟩ := hs m x hx
  obtain ⟨p, hp, -, hsame⟩ := h.symm.order ho
  exact ⟨p, hp, by rwa [hsame], fun hi => hsame.trans (hrunning (hissuing hi))⟩

theorem SameViews.atWork {s t : State} (h : SameViews s t) {m : Lane} {e : TableEntry} {o : PoolOrder} (hwork : AtWork t m e o) :
    ∃ d x, AtWork s m d x ∧ d.footprint = e.footprint := by
  obtain ⟨he, ho, hlife⟩ := hwork
  obtain ⟨d, hd, hslot, hfootprint⟩ := h.entry he
  obtain ⟨x, hx, -, hsame⟩ := h.slot ho
  exact ⟨d, x, ⟨hd, hslot ▸ hx, hsame ▸ hlife⟩, hfootprint⟩

theorem SameViews.interlockHolds {s t : State} (h : SameViews s t) (hs : InterlockHolds s) : InterlockHolds t := by
  obtain ⟨howns, hhas, hclear⟩ := hs
  refine ⟨fun m e o f he ho hf => ?_, fun m e o hwork => ?_, fun m n d e x y f g hne hx hy hf hg => ?_⟩
  · obtain ⟨d, hd, hslot, hfootprint⟩ := h.entry he
    obtain ⟨x, hx, hentry, -⟩ := h.slot ho
    obtain ⟨k, hk, heq⟩ := howns m d x f hd (hslot ▸ hx) (hfootprint.trans hf)
    rw [PoolOrder.kind, hentry] at hk
    exact ⟨k, hk, hentry ▸ heq⟩
  · obtain ⟨d, x, hwork, hfootprint⟩ := h.atWork hwork
    exact hfootprint ▸ hhas m d x hwork
  · obtain ⟨d', x', hx, hd⟩ := h.atWork hx
    obtain ⟨e', y', hy, he⟩ := h.atWork hy
    exact hclear m n d' e' x' y' f g hne hx hy (hd.trans hf) (he.trans hg)

theorem SameViews.occupied {s t : State} (h : SameViews s t) : occupied t = occupied s :=
  occupied_congr fun i => by simpa using congrArg Option.isSome (h.slots i)

theorem SameViews.keepsTable {s t : State} (h : SameViews s t) (hqueues : t.pool.queues = s.pool.queues)
    (hwrites : ∀ i, reportWrites t i = reportWrites s i)
    (hgenerators : ∀ (m : Lane) g, t.strokes.generators[m] = some g → ∃ x, s.strokes.generators[m] = some x ∧ (g.issuing = true → x.issuing = true))
    (hs : OrdersPlaced s) : KeepsTable s t :=
  ⟨h.placed hqueues hwrites hs, h.generatorsRun hgenerators, h.interlockHolds⟩

end Sys2Proof.Safety
end

section
/-! PROOFS. The operations on orders and strokes keep the invariants: what reports, stops, starts, issues and ends (R78 to R112). -/

namespace Sys2Proof.Safety

open Sys2Proof.Machine

/-! ## An order enters REPORTING (R86) -/

theorem toReporting_eq {s : State} {l : Lane} {e : TableEntry} (he : laneEntry s l = some e) (r : OrderResult) :
    toReporting l r s = placeRequest (.result e.slot) (setGenerator l none (updateLane l (reportSlot r) reportEntry s)) := by
  simp [toReporting, he]

theorem toReporting_empty {s : State} {l : Lane} (he : laneEntry s l = none) (r : OrderResult) : toReporting l r s = s := by
  simp [toReporting, he]

theorem toReporting_laneStep {s : State} {l : Lane} {e : TableEntry} {o : PoolOrder} (he : laneEntry s l = some e)
    (ho : slotOrder s e.slot = some o) (r : OrderResult) :
    LaneStep s (toReporting l r s) l e (reportEntry e) o (reportSlot r o) := by
  rw [toReporting_eq he]
  exact (updateLane_laneStep (g := reportEntry) he ho rfl rfl (fun _ => by simp [reportSlot])).congr rfl rfl

theorem reportWrites_toReporting {s : State} {l : Lane} {e : TableEntry} (he : laneEntry s l = some e) (r : OrderResult) (i : SlotId) :
    reportWrites (toReporting l r s) i = reportWrites s i + if i = e.slot then 1 else 0 := by
  rw [toReporting_eq he, reportWrites_placeRequest, reportWrites_of_channel (s := s) (by simp) (by simp)]
  simp [eq_comm]

theorem toReporting_generators {s : State} {l : Lane} {e : TableEntry} (he : laneEntry s l = some e) (r : OrderResult) :
    (toReporting l r s).strokes.generators = s.strokes.generators.set l none := by
  rw [toReporting_eq he]
  simp

theorem keepsTable_toReporting {s : State} {l : Lane} {e : TableEntry} {o : PoolOrder} (he : laneEntry s l = some e)
    (ho : slotOrder s e.slot = some o) (r : OrderResult) (hlife : o.life ≠ .reporting) (hs : OrdersPlaced s) :
    KeepsTable s (toReporting l r s) := by
  have hstep := toReporting_laneStep he ho r
  have hgenerators := toReporting_generators he r
  refine ⟨hstep.placed hs fun i => ?_, hstep.generatorsRun hs (fun m hm => ?_) fun g hg => ?_,
    hstep.interlockHolds hs (fun f hf => ?_) fun hwork => ?_⟩
  · rw [reportWrites_toReporting he]
    split
    · rename_i hi
      have hzero : reportWrites s i = 0 := hs.writes_zero fun x hx => by
        rw [hi, ho] at hx
        cases hx
        exact hlife
      rw [hzero, hi]
      exact ⟨Nat.le_refl _, fun _ => ⟨_, hstep.slot_same, rfl⟩⟩
    · rename_i hi
      rw [hstep.slots, if_neg hi]
      exact ⟨hs.writes_le i, hs.write_reporting⟩
  · rw [hgenerators, getElem_set_other _ _ _ _ hm]
  · rw [hgenerators, getElem_set_same] at hg
    cases hg
  · unfold reportEntry at hf
    dsimp only at hf
    split at hf
    · exact hf
    · cases hf
  · simp [IsAtWork, reportSlot] at hwork

theorem sameIntakeSide_toReporting (l : Lane) (r : OrderResult) (s : State) : SameIntakeSide s (toReporting l r s) := by
  cases he : laneEntry s l with
  | none =>
    rw [toReporting_empty he]
    exact .refl s
  | some e =>
    refine ⟨⟨by simp, by simp, by simp, by simp [toReporting_eq he, Request.isIntake]⟩, by simp, by simp, by simp, ?_⟩
    refine occupied_congr fun i => ?_
    rw [toReporting_eq he]
    exact updateLane_isSome l _ _ s i

/-- An order that is not in REPORTING yet enters it. -/
theorem Keeps.after_toReporting {s : State} {l : Lane} (r : OrderResult)
    (hlife : OrdersPlaced s → ∀ o, laneOrder s l = some o → o.life ≠ .reporting) : Keeps s (toReporting l r s) := by
  refine .of_table (sameIntakeSide_toReporting l r s) (fun hs => ?_) (by simp [SameArea, SameCells]) fun hs => ?_
  · cases he : laneEntry s l with
    | none => rwa [toReporting_empty he]
    | some e =>
      rw [toReporting_eq he]
      exact headerFlagAgrees_placeRequest (by simp) (by simpa [HeaderFlagAgrees] using hs)
  · cases he : laneEntry s l with
    | none =>
      rw [toReporting_empty he]
      exact ⟨hs, id, id⟩
    | some e =>
      obtain ⟨o, ho, hlane⟩ := hs.order_of_entry he
      exact keepsTable_toReporting he ho r (hlife hs o hlane) hs

theorem Keeps.after_endTest (l : Lane) (s : State) : Keeps s (endTest l s) := by
  unfold endTest
  split
  · exact .refl s
  · rename_i o ho
    split
    · exact .refl s
    · refine .ite (fun hend => .after_toReporting _ fun _ x hx => ?_) fun _ => .refl s
      cases ho.symm.trans hx
      simp_all

/-! ## Notes on an order and its entry -/

theorem sameViews_updateLane {l : Lane} {f : PoolOrder → PoolOrder} {g : TableEntry → TableEntry} {s : State}
    (hf : ∀ o, laneOrder s l = some o → orderView (f o) = orderView o) (hg : ∀ e, entryView (g e) = entryView e) :
    SameViews s (updateLane l f g s) := by
  cases ho : laneOrder s l with
  | none =>
    rw [updateLane_empty ho]
    exact ⟨fun _ => rfl, fun _ => rfl⟩
  | some o =>
    have hsame := hf o ho
    obtain ⟨e, he, ho⟩ := laneOrder_eq_some ho
    obtain ⟨hslots, htable⟩ := updateLane_held (f := f) (g := g) he ho
    refine ⟨fun i => ?_, fun m => ?_⟩
    · rw [hslots]
      split
      · rename_i hi
        rw [hi, ho, Option.map_some, Option.map_some, hsame]
      · rfl
    · rw [htable]
      split
      · rename_i hm
        rw [hm, he, Option.map_some, Option.map_some, hg]
      · rfl

/-- A note on an order or an entry changes neither words, lifecycle state, slot nor footprint. -/
theorem Keeps.after_updateLane {l : Lane} {f : PoolOrder → PoolOrder} {g : TableEntry → TableEntry} {s : State}
    (hf : ∀ o, laneOrder s l = some o → orderView (f o) = orderView o) (hg : ∀ e, entryView (g e) = entryView e) :
    Keeps s (updateLane l f g s) := by
  have hviews := sameViews_updateLane hf hg
  refine .of_table ⟨⟨by simp, by simp, by simp, by simp⟩, by simp, by simp, by simp, hviews.occupied⟩ (fun hs => ?_)
    (by simp [SameArea, SameCells]) (hviews.keepsTable (updateLane_queues l f g s) (fun i => ?_) fun m x hx => ⟨x, by simpa using hx, id⟩)
  · simpa [HeaderFlagAgrees] using hs
  · exact reportWrites_congr (by simp) i

theorem Keeps.after_setWait (l : Lane) (w : WaitReason) (s : State) : Keeps s (setWait l w s) :=
  .after_updateLane (fun _ _ => rfl) fun _ => rfl

/-! ## Generators (R92) -/

theorem sameViews_of_tables {s t : State} (hslots : t.pool.slots = s.pool.slots) (htable : t.table = s.table) : SameViews s t :=
  ⟨fun i => by rw [slotOrder_congr hslots], fun m => by rw [laneEntry_congr htable]⟩

/-- A generator that a RUNNING order gets, or that is removed, or whose issue does not begin anew. -/
theorem Keeps.after_setGenerator {l : Lane} {g : Option Generator} {s : State}
    (hg : ∀ x, g = some x → (∃ y, s.strokes.generators[l] = some y ∧ (x.issuing = true → y.issuing = true))
      ∨ laneLife s l = some .running) : Keeps s (setGenerator l g s) := by
  have hviews : SameViews s (setGenerator l g s) := sameViews_of_tables (by simp) (by simp)
  refine .of_table ⟨⟨by simp, by simp, by simp, by simp⟩, by simp, by simp, by simp, hviews.occupied⟩ (fun hs => ?_)
    (by simp [SameArea, SameCells]) fun hs => ⟨hviews.placed (by simp) (fun i => reportWrites_congr (by simp) i) hs, fun hgen => ?_,
      hviews.interlockHolds⟩
  · simpa [HeaderFlagAgrees] using hs
  · intro m x hx
    rw [laneOrder_congr (s := s) (by simp) (by simp)]
    rw [setGenerator_generators] at hx
    by_cases hm : m = l
    · subst hm
      rw [getElem_set_same] at hx
      rcases hg x hx with ⟨y, hy, hissuing⟩ | hrunning
      · obtain ⟨o, ho, hwork, hrun⟩ := hgen m y hy
        exact ⟨o, ho, hwork, hrun ∘ hissuing⟩
      · obtain ⟨o, ho, hlife⟩ := Option.map_eq_some_iff.mp hrunning
        exact ⟨o, ho, .inl hlife, fun _ => hlife⟩
    · rw [getElem_set_other _ _ _ _ hm] at hx
      exact hgen m x hx

theorem Keeps.after_updateGenerator {l : Lane} {f : Generator → Generator} (hf : ∀ g, (f g).issuing = g.issuing) (s : State) :
    Keeps s (updateGenerator l f s) := by
  refine .after_setGenerator fun x hx => ?_
  obtain ⟨y, hy, rfl⟩ := Option.map_eq_some_iff.mp hx
  exact .inl ⟨y, hy, fun hi => (hf y).symm.trans hi⟩

/-! ## A RUNNING order stops (R84, R88) -/

theorem stopIssuing_issuing {l : Lane} {s : State} {g : Generator} (hg : (stopIssuing l s).strokes.generators[l] = some g) :
    g.issuing = false := by
  unfold stopIssuing at hg
  rw [setGenerator_generators, getElem_set_same] at hg
  obtain ⟨y, -, rfl⟩ := Option.map_eq_some_iff.mp hg
  rfl

theorem stopIssuing_other {l m : Lane} {s : State} (hm : m ≠ l) :
    (stopIssuing l s).strokes.generators[m] = s.strokes.generators[m] := by
  unfold stopIssuing
  rw [setGenerator_generators, getElem_set_other _ _ _ _ hm]

/-- The order and the generator of a lane stop together. -/
def stopLane (l : Lane) (cause : Option StopCause) (s : State) : State :=
  stopIssuing l (updateLane l (fun o => { o with life := .stopping, stopCause := cause }) id s)

theorem stopLane_laneStep {s : State} {l : Lane} {e : TableEntry} {o : PoolOrder} (he : laneEntry s l = some e)
    (ho : slotOrder s e.slot = some o) (cause : Option StopCause) :
    LaneStep s (stopLane l cause s) l e e o { o with life := .stopping, stopCause := cause } :=
  (updateLane_laneStep (f := fun o => { o with life := .stopping, stopCause := cause }) (g := id) he ho rfl rfl
    fun _ => by simp).congr (by simp [stopLane]) (by simp [stopLane])

theorem Keeps.after_stopLane {s : State} {l : Lane} {o : PoolOrder} (ho : laneOrder s l = some o) (hlife : o.life = .running)
    (cause : Option StopCause) : Keeps s (stopLane l cause s) := by
  obtain ⟨e, he, ho⟩ := laneOrder_eq_some ho
  have hstep := stopLane_laneStep he ho cause
  refine .of_table ⟨⟨by simp [stopLane], by simp [stopLane], by simp [stopLane], by simp [stopLane]⟩, by simp [stopLane], by simp [stopLane],
      by simp [stopLane], occupied_congr fun i => ?_⟩ (fun hs => ?_) (by simp [SameArea, SameCells, stopLane])
    fun hs => ⟨hstep.placed hs fun i => ?_, hstep.generatorsRun hs (fun m hm => ?_) fun g hg => ?_,
      ?_⟩
  · exact updateLane_isSome l _ _ s i
  · simpa [HeaderFlagAgrees, stopLane] using hs
  · rw [reportWrites_congr (s := s) (by simp [stopLane])]
    refine ⟨hs.writes_le i, fun hi => ?_⟩
    obtain ⟨x, hx, hreporting⟩ := hs.write_reporting hi
    refine ⟨x, ?_, hreporting⟩
    rw [hstep.slots, if_neg, hx]
    rintro rfl
    cases hx.symm.trans ho
    exact absurd (hlife.symm.trans hreporting) (by decide)
  · rw [stopLane, stopIssuing_other hm]
    simp
  · exact ⟨.inr rfl, fun hi => absurd (hi.symm.trans (stopIssuing_issuing hg)) (by decide)⟩
  · exact fun hlock => hstep.interlockHolds hs (fun _ => id) (fun _ => hstep.work_kept hlock (.inl hlife) rfl) hlock

theorem stopOrder_running {s : State} {l : Lane} {o : PoolOrder} (ho : laneOrder s l = some o) (hlife : o.life = .running)
    (cause : Option StopCause) : stopOrder l cause s = dropArming { lane := l, seq := o.seq } (stopLane l cause s) := by
  simp [stopOrder, ho, hlife, stopLane]

theorem stopOrder_of_not_running {s : State} {l : Lane} (h : ∀ o, laneOrder s l = some o → o.life ≠ .running)
    (cause : Option StopCause) : stopOrder l cause s = s := by
  unfold stopOrder
  split
  · rfl
  · rename_i o ho
    simp [h o ho]

theorem Keeps.after_stopOrder (l : Lane) (cause : Option StopCause) (s : State) : Keeps s (stopOrder l cause s) := by
  by_cases hrunning : ∃ o, laneOrder s l = some o ∧ o.life = .running
  · obtain ⟨o, ho, hlife⟩ := hrunning
    rw [stopOrder_running ho hlife]
    exact (Keeps.after_stopLane ho hlife cause).trans (.after_dropArming _ _)
  · rw [stopOrder_of_not_running fun o ho hlife => hrunning ⟨o, ho, hlife⟩]
    exact .refl s

theorem Keeps.after_toStopping (l : Lane) (cause : Option StopCause) (s : State) : Keeps s (toStopping l cause s) :=
  .ite (fun _ => (Keeps.after_stopOrder l cause s).trans (.after_endTest l _)) fun _ => .refl s

/-- What `laneLife` says of the order in a lane. -/
theorem life_of_laneLife {s : State} {l : Lane} {x : Lifecycle} (h : laneLife s l = some x) {o : PoolOrder} (ho : laneOrder s l = some o) :
    o.life = x := by
  rw [laneLife, ho, Option.map_some] at h
  exact Option.some.inj h

/-- An order that waits, runs or stops enters REPORTING. -/
theorem Keeps.after_toReporting_of_life {s : State} {l : Lane} {x : Lifecycle} (r : OrderResult) (h : laneLife s l = some x)
    (hx : x ≠ .reporting) : Keeps s (toReporting l r s) :=
  .after_toReporting r fun _ _ ho => life_of_laneLife h ho ▸ hx

theorem Keeps.after_orderComplete (l : Lane) (r : OrderResult) (s : State) : Keeps s (orderComplete l r s) :=
  .ite (fun hrunning => .after_toReporting_of_life r (by simpa using hrunning) (by decide)) fun _ => .after_endTest l s

theorem Keeps.after_powerComplete (owner : Option OrderName) (s : State) : Keeps s (powerComplete owner s) := by
  unfold powerComplete
  split
  · exact .refl s
  · exact .ite (fun _ => .after_orderComplete _ _ s) fun _ => .refl s

/-! ## The end of a stroke (R109) -/

theorem inFlight_eq_countP (s : State) (l : Lane) : inFlight s l = s.strokes.records.countP fun r => r.id.lane == l := by
  rw [inFlight, strokesOf, List.countP_eq_length_filter]

theorem Keeps.after_removeStroke (r : StrokeRecord) (s : State) : Keeps s (removeStroke r s) := by
  refine .of_strokes _ rfl fun l => Nat.le_trans ?_ (Nat.le_max_right _ _)
  rw [inFlight_eq_countP, inFlight_eq_countP]
  exact List.Sublist.countP_le List.filter_sublist

theorem Keeps.after_setRegion (r : RegionId) (v : Region) (s : State) : Keeps s (setRegion r v s) :=
  .of_same (by simp [SameControl, SameOrderSide]) (by simp [SameCells]) (by simp)

theorem Keeps.after_armingReport (i : StrokeId) (r : RegionId) (s : State) : Keeps s (armingReport i r s) := by
  refine .ite (fun _ => .ite (fun _ => .after_setRegion _ _ s) fun _ => ?_) fun _ => .refl s
  have hdone := (Keeps.after_setRegion r (Region.become .kept) s).trans (.after_updateLane (l := i.lane)
    (f := fun o => { o with done := o.done + Config.regionBytes }) (g := id) (fun _ _ => rfl) fun _ => rfl)
  dsimp only
  split
  · exact .ite (fun _ => hdone.trans (.after_orderComplete _ _ _)) fun _ => hdone
  · exact hdone

theorem Keeps.after_dataCompleteTest (l : Lane) (s : State) : Keeps s (dataCompleteTest l s) := by
  unfold dataCompleteTest
  split
  · rename_i g o _ ho
    refine .ite (fun hdone => .after_toReporting _ fun _ x hx => ?_) fun _ => .refl s
    cases ho.symm.trans hx
    simp_all
  · exact .refl s

theorem Keeps.after_endTests (l : Lane) (s : State) : Keeps s (endTests l s) :=
  (Keeps.after_dataCompleteTest l s).trans (.after_endTest l _)

theorem Keeps.after_copyDone (l : Lane) (s : State) : Keeps s (copyDone l s) := by
  unfold copyDone
  split
  · exact .ite (fun _ => .after_updateLane (fun _ _ => rfl) fun _ => rfl) fun _ => .refl s
  · exact .refl s

theorem Keeps.after_addCorrected (l : Lane) (n : Nat) (s : State) : Keeps s (addCorrected l n s) :=
  .after_updateLane (fun _ _ => rfl) fun _ => rfl

theorem enterPrefix_issuing (i : Nat) (g : Generator) : (enterPrefix i g).issuing = g.issuing := by
  unfold enterPrefix
  split
  · rfl
  · split <;> rfl

theorem lowerBarrier_issuing (i : Nat) (g : Generator) : (lowerBarrier i g).issuing = g.issuing := by
  unfold lowerBarrier
  split <;> rfl

theorem Keeps.after_strokeCompletes (r : StrokeRecord) (s : State) : Keeps s (strokeCompletes r s) := by
  refine (Keeps.after_removeStroke r s).trans (.ite (fun _ => .refl _) fun _ => ?_)
  have hprefix := ((Keeps.after_addCorrected r.id.lane r.corrected (removeStroke r s)).trans
    (.after_updateGenerator (l := r.id.lane) (enterPrefix_issuing r.id.index) _)).trans (.after_copyDone r.id.lane _)
  exact hprefix.trans (.ite (fun _ => .after_armingReport _ _ _) fun _ => .refl _)

theorem Keeps.after_strokeFails (r : StrokeRecord) (c : StopCause) (s : State) : Keeps s (strokeFails r c s) := by
  refine (Keeps.after_removeStroke r s).trans (.ite (fun _ => .refl _) fun _ => ?_)
  exact (Keeps.after_updateGenerator (lowerBarrier_issuing r.id.index) _).trans (.after_stopOrder _ _ _)

/-! ## The issue of strokes (R93 to R98) -/

theorem Keeps.after_placeBankRequest (r : StrokeRecord) (a : Nat) (k : BankRequestKind) (s : State) : Keeps s (placeBankRequest r a k s) :=
  .ite (fun _ => (Keeps.after_strokeFails r .regionDropped s).trans (.after_endTest _ _)) fun _ => .after_joinBank _ _ s

theorem Keeps.after_placeFirstStep (r : StrokeRecord) (aux : Word) (s : State) : Keeps s (placeFirstStep r aux s) := by
  unfold placeFirstStep
  cases r.kind with
  | load => exact .after_dataRequest rfl s
  | fetch | copy | scrub | fill | arming => exact .after_placeBankRequest r _ _ s

/-- A stroke of a lane with fewer than four in flight joins the records, with the buffer it was granted. -/
theorem Keeps.after_addStroke {r : StrokeRecord} {s : State} (b : Option BufferId) (hroom : inFlight s r.id.lane < Config.maxInFlight) :
    Keeps s (addStroke r (holdBuffer b r.id s)) := by
  have hhold : Keeps s (holdBuffer b r.id s) := by
    cases b with
    | none => exact .refl s
    | some b => exact .of_same (by simp [SameControl, SameOrderSide, holdBuffer]) (by simp [SameCells]) (by simp)
  have hrecords : (holdBuffer b r.id s).strokes.records = s.strokes.records := by simp
  refine hhold.trans (.of_strokes _ rfl fun l => ?_)
  rw [← inFlight_congr hrecords] at hroom
  simp only [inFlight_eq_countP, List.countP_append, List.countP_singleton] at hroom ⊢
  simp only [Config.maxInFlight] at hroom
  split
  · rename_i hl
    have hl : r.id.lane = l := by simpa using hl
    rw [hl] at hroom
    omega
  · omega

theorem Keeps.after_issueStroke {l : Lane} {s : State} (b : Option BufferId) (hroom : inFlight s l < Config.maxInFlight) :
    Keeps s (issueStroke l b s) := by
  unfold issueStroke
  split
  · exact .refl s
  · dsimp only
    split
    · exact .after_toStopping l _ s
    · rename_i o g k _ _ _
      have hadded : Keeps s (addStroke (nextRecord l o g k b) (holdBuffer b (nextRecord l o g k b).id s)) := .after_addStroke b hroom
      have hnext := Keeps.after_updateGenerator (l := l) (f := fun g => { g with nextStroke := g.nextStroke + 1 }) (fun _ => rfl)
        (addStroke (nextRecord l o g k b) (holdBuffer b (nextRecord l o g k b).id s))
      exact (hadded.trans hnext).trans (.after_placeFirstStep _ _ _)

theorem room_of_mayIssue {s : State} {l : Lane} {o : PoolOrder} {g : Generator} (h : mayIssueStroke s l o g = true) :
    inFlight s l < Config.maxInFlight := by
  simp only [mayIssueStroke, Bool.and_eq_true, decide_eq_true_eq] at h
  obtain ⟨⟨⟨-, hroom⟩, -⟩, -⟩ := h
  exact hroom

theorem room_of_issuesAlone {s : State} {l : Lane} (h : issuesAlone s l = true) : inFlight s l < Config.maxInFlight := by
  unfold issuesAlone at h
  split at h
  · exact room_of_mayIssue (Bool.and_eq_true_iff.mp h).2
  · cases h

theorem room_of_wantsBuffer {s : State} {l : Lane} (h : wantsBuffer s l = true) : inFlight s l < Config.maxInFlight := by
  unfold wantsBuffer at h
  split at h
  · exact room_of_mayIssue (Bool.and_eq_true_iff.mp h).2
  · cases h

theorem Keeps.after_issueAlone (fuel : Nat) (l : Lane) (s : State) : Keeps s (issueAlone fuel l s) := by
  induction fuel generalizing s with
  | zero => exact .refl s
  | succ fuel ih => exact .ite (fun halone => (Keeps.after_issueStroke none (room_of_issuesAlone halone)).trans (ih _)) fun _ => .refl s

theorem wants_of_nextWanter {s : State} {l : Lane} (h : nextWanter s = some l) : wantsBuffer s l = true := by
  simpa using List.find?_some h

theorem Keeps.after_grantBuffer {l : Lane} {s : State} (b : BufferId) (hwants : wantsBuffer s l = true) : Keeps s (grantBuffer l b s) := by
  have hroom := room_of_wantsBuffer hwants
  unfold grantBuffer
  split
  · exact .refl s
  · refine .ite (fun _ => .after_issueStroke _ hroom) fun _ => ?_
    have hgranted : Keeps s { s with strokes := { s.strokes with lastGranted := l } } :=
      .of_same (by simp [SameControl, SameOrderSide]) (by simp [SameCells]) (by simp)
    exact hgranted.trans (.after_issueStroke _ hroom)

theorem Keeps.after_grantBuffers (fuel : Nat) (s : State) : Keeps s (grantBuffers fuel s) := by
  induction fuel generalizing s with
  | zero => exact .refl s
  | succ fuel ih =>
    unfold grantBuffers
    split
    · rename_i hwanter
      exact (Keeps.after_grantBuffer _ (wants_of_nextWanter hwanter)).trans (ih _)
    · exact .refl s

theorem Keeps.after_grants (s : State) : Keeps s (grants s) := .after_grantBuffers 12 s

theorem Keeps.after_issueMore (l : Lane) (s : State) : Keeps s (issueMore l s) :=
  (Keeps.after_issueAlone _ l s).trans (.after_grants _)

theorem Keeps.after_issueOne (l : Lane) (s : State) : Keeps s (issueOne l s) := by
  refine .ite (fun halone => .after_issueStroke none (room_of_issuesAlone halone)) fun _ => ?_
  split
  · exact .ite (fun hwanter => .after_grantBuffer _ (wants_of_nextWanter hwanter)) fun _ => .refl s
  · exact .refl s

theorem Keeps.after_strokeDone (r : StrokeRecord) (s : State) : Keeps s (strokeDone r s) :=
  ((Keeps.after_strokeCompletes r s).trans (.after_issueMore _ _)).trans (.after_endTests _ _)

theorem Keeps.after_strokeFailed (r : StrokeRecord) (c : StopCause) (s : State) : Keeps s (strokeFailed r c s) :=
  ((Keeps.after_strokeFails r c s).trans (.after_issueMore _ _)).trans (.after_endTests _ _)

/-! ## The host's data and the results of accesses (R101 to R105, R124) -/

theorem Keeps.after_fillBuffer (r : StrokeRecord) (data : Line) (s : State) : Keeps s (fillBuffer r data s) := by
  unfold fillBuffer
  split
  · exact .of_same (by simp [SameControl, SameOrderSide]) (by simp [SameCells]) (by simp)
  · exact .refl s

theorem Keeps.after_updateStroke {i : StrokeId} {f : StrokeRecord → StrokeRecord} (hf : ∀ x, (f x).id = x.id) (s : State) :
    Keeps s (updateStroke i f s) := by
  refine .of_strokes _ rfl fun l => Nat.le_trans (Nat.le_of_eq ?_) (Nat.le_max_right _ _)
  rw [inFlight_eq_countP, inFlight_eq_countP, List.countP_map]
  refine List.countP_congr fun x _ => ?_
  dsimp only [Function.comp]
  split
  · rw [hf]
  · rfl

theorem Keeps.after_placeWrite (r : StrokeRecord) (a : Nat) (data : Line) (s : State) : Keeps s (placeWrite r a data s) :=
  .ite (fun _ => .after_strokeFailed r _ s) fun _ => .after_joinBank _ _ s

theorem Keeps.after_hostReadDone (data : Line) (a : Access) (s : State) : Keeps s (hostReadDone data a s) := by
  unfold hostReadDone
  split
  · rename_i r _
    have hphase := Keeps.after_updateStroke (i := r.id) (f := fun x => { x with phase := .arrayWriting }) (fun _ => rfl)
      (fillBuffer r data s)
    exact ((Keeps.after_fillBuffer r data s).trans hphase).trans (.after_placeWrite _ _ _ _)
  · exact .refl s

theorem Keeps.after_hostWriteDone (a : Access) (s : State) : Keeps s (hostWriteDone a s) := by
  unfold hostWriteDone
  split
  · exact .after_strokeDone _ s
  · exact .refl s

theorem Keeps.after_readDelivered (r : StrokeRecord) (n : Nat) (data : Line) (s : State) : Keeps s (readDelivered r n data s) := by
  have hphase (p : Phase) := Keeps.after_updateStroke (i := r.id) (f := fun x => { x with phase := p, corrected := n }) (fun _ => rfl)
    (fillBuffer r data s)
  refine (Keeps.after_fillBuffer r data s).trans (.ite (fun _ => ?_) fun _ => ?_)
  · exact (hphase .arrayWriting).trans (.after_placeWrite _ _ _ _)
  · exact (hphase .hostWriting).trans (.after_dataRequest rfl _)

theorem Keeps.after_handResult (q : BankRequest) (c : Classification) (data : Line) (s : State) : Keeps s (handResult q c data s) := by
  unfold handResult
  split
  · exact .refl s
  · split
    · exact .after_strokeDone _ s
    · exact .after_strokeFailed _ _ s
    · exact .after_readDelivered _ _ _ s
    · exact .after_strokeFailed _ _ s
    · exact .after_strokeDone _ s

theorem Keeps.after_dataFails (i : StrokeId) (s : State) : Keeps s (dataFails i s) := by
  unfold dataFails
  split
  · exact .after_strokeFailed _ _ s
  · exact .refl s

end Sys2Proof.Safety
end

section
/-! PROOFS. The array mode, the domains and the banks coming to rest keep the invariants; a bank that rests stood down reports at the event it comes to rest (R126, R170). -/

namespace Sys2Proof.Safety

open Sys2Proof.Machine

/-! ## The array mode (R173 to R176) -/

theorem Keeps.of_mode {s : State} (m : ModeLogic) (hm : ModeTimersLegal s.arrayMode → ModeTimersLegal m) : Keeps s { s with arrayMode := m } where
  toKeepsOrders := .of_control (by simp [SameControl, SameOrderSide]) id id hm
  stood := id

theorem Keeps.after_startWake {s : State} (h : s.arrayMode.mode ≠ .run) : Keeps s (startWake s) := by
  refine (Keeps.of_mode _ fun hs => ⟨fun hidle => ?_, by simp⟩).trans (.after_requestHeaderUpdate _)
  exact absurd (hs.1 hidle) h

theorem Keeps.after_endSleepEntry {s : State} (h : s.arrayMode.mode = .enteringSleep) : Keeps s (endSleepEntry s) := by
  refine .ite (fun _ => .after_startWake (by simp [h])) fun _ => (Keeps.of_mode _ fun hs => ⟨fun hidle => ?_, ?_⟩).trans
    (.after_requestHeaderUpdate _)
  · have := h.symm.trans (hs.1 hidle)
    cases this
  · simpa [h] using hs.2

theorem Keeps.after_sleepEntryTest (s : State) : Keeps s (sleepEntryTest s) :=
  .ite (fun hentering => .after_endSleepEntry (by simp_all)) fun _ => .refl s

theorem Keeps.after_wakeFollow (s : State) : Keeps s (wakeFollow s) :=
  .ite (fun hasleep => .after_startWake (by simp_all)) fun _ => .refl s

/-! ## The stand-down with reports still due -/

/-- Each bank of the domain standing down that rests stood down has reported, but the banks in `due` (R126, R170). -/
def StandDownBut (due : List BankId) (s : State) : Prop :=
  ∀ v, s.domains.serving = some v → v.phase = .standingDown →
    ¬(v.lowerDown = true ∧ v.upperDown = true)
    ∧ ∀ b : BankId, b ∉ due → bankDomain b = v.domain → RestsStoodDown s.banks[b] →
        (if b = lowerBank v.domain then v.lowerDown else v.upperDown) = true

theorem standDownReported_iff (s : State) : StandDownReported s ↔ StandDownBut [] s := by
  constructor
  · intro h v hv hphase
    obtain ⟨hboth, hreported⟩ := h v hv hphase
    exact ⟨hboth, fun b _ hb hrests => hreported b hb hrests.1 hrests.2⟩
  · intro h v hv hphase
    obtain ⟨hboth, hreported⟩ := h v hv hphase
    exact ⟨hboth, fun b hb hdown hstate => hreported b List.not_mem_nil hb ⟨hdown, hstate⟩⟩

/-- A bank that does not rest stood down owes no report. -/
theorem StandDownBut.of_not_rests {b : BankId} {due : List BankId} {s : State} (h : StandDownBut (b :: due) s) (hb : ¬RestsStoodDown s.banks[b]) :
    StandDownBut due s := by
  intro v hv hphase
  obtain ⟨hboth, hreported⟩ := h v hv hphase
  refine ⟨hboth, fun c hc hdomain hrests => hreported c ?_ hdomain hrests⟩
  rintro (_ | ⟨_, hmem⟩)
  · exact hb hrests
  · exact hc hmem

theorem StandDownBut.of_rests {due : List BankId} {s t : State} (h : StandDownBut due s) (hserving : t.domains.serving = s.domains.serving)
    (hrests : ∀ b : BankId, b ∉ due → RestsStoodDown t.banks[b] → RestsStoodDown s.banks[b]) : StandDownBut due t := by
  intro v hv hphase
  obtain ⟨hboth, hreported⟩ := h v (hserving ▸ hv) hphase
  exact ⟨hboth, fun b hb hdomain hb' => hreported b hb hdomain (hrests b hb hb')⟩

theorem StandDownBut.cons {due : List BankId} {s : State} (h : StandDownBut due s) (b : BankId) : StandDownBut (b :: due) s := by
  intro v hv hphase
  obtain ⟨hboth, hreported⟩ := h v hv hphase
  exact ⟨hboth, fun c hc => hreported c (List.not_mem_of_not_mem_cons hc)⟩

/-- Writing a bank leaves the reports of the others as they are. -/
theorem StandDownBut.after_setBank {due : List BankId} {s : State} (h : StandDownBut due s) (b : BankId) (k : Bank) :
    StandDownBut (b :: due) (setBank b k s) := by
  refine (h.cons b).of_rests rfl fun c hc => ?_
  rw [setBank_banks, getElem_set_other _ _ _ _ (List.ne_of_not_mem_cons hc)]
  exact id

/-! ## A domain loses power (R170 2, R126, R142, R153) -/

theorem Keeps.after_setDomain (d : DomainId) (st : DomainState) (s : State) : Keeps s (setDomain d st s) := by
  have hstates : Keeps s { s with domains := { s.domains with states := s.domains.states.set d st } } :=
    .of_same (by simp [SameControl, SameOrderSide]) (by simp [SameCells]) (by simp)
  exact hstates.trans (.after_requestHeaderUpdate _)

theorem Keeps.after_setBank {b : BankId} {k : Bank} {s : State} (h : RestsStoodDown k → RestsStoodDown s.banks[b]) :
    Keeps s (setBank b k s) :=
  .of_banks (by simp [SameControl, SameOrderSide]) (by simp [SameCells]) (by simp) (.setBank h)

theorem Keeps.after_setRefresh (b : BankId) (r : RefreshBank) (s : State) : Keeps s (setRefresh b r s) :=
  .of_same (by simp [SameControl, SameOrderSide]) (by simp [SameCells]) (by simp)

theorem Keeps.after_handK (b : BankId) (s : State) : Keeps s (handK b s) :=
  .of_banks (by simp [SameControl, SameOrderSide]) (by simp [SameCells]) (by simp) (restsKept_handK b s)

theorem Keeps.after_powerOffBank (b : BankId) (s : State) : Keeps s (powerOffBank b s) :=
  (Keeps.after_setBank fun hrests => absurd hrests.1 (by simp [unpoweredBank])).trans (.after_setRefresh _ _ _)

theorem Keeps.after_discardCells (d : DomainId) (s : State) : Keeps s { s with array := discardCells d s.array } where
  toKeepsOrders := .of_control (by simp [SameControl, SameOrderSide]) id (discardCells_wf d s.array) id
  stood := id

theorem Keeps.after_dropPower (d : DomainId) (s : State) : Keeps s (dropPower d s) := by
  have hoff := ((Keeps.after_discardCells d s).trans (.after_powerOffBank (lowerBank d) _)).trans (.after_powerOffBank (upperBank d) _)
  exact ((hoff.trans (.after_mapRegions _ _)).trans (.after_handK _ _)).trans (.after_handK _ _)

theorem Keeps.after_discardStroke (s : State) (r : StrokeRecord) : Keeps s (discardStroke s r) :=
  .ite (fun _ => .after_strokeFailed _ _ s) fun _ => .refl s

/-- The switch controller begins the fall of a domain's power: no report is due any more. -/
def beginFall (v : Served) (s : State) : State :=
  { s with domains := { s.domains with serving := some { v with phase := .falling }, rampTimer := some Config.rampDownUs } }

theorem standDownReported_beginFall (v : Served) (s : State) : StandDownReported (beginFall v s) :=
  standDownReported_of_phase fun w hw => by
    cases hw
    exact nofun

/-- A change of what the switch controller serves, the reports aside. -/
theorem KeepsOrders.of_domains {s : State} (x : DomainControl) : KeepsOrders s { s with domains := x } :=
  .of_control (by simp [SameControl, SameOrderSide]) id id id

theorem Keeps.beginFall_startDrain (v : Served) (s : State) : Keeps (beginFall v s) (startDrain v s) := by
  have hpower := (Keeps.after_setDomain v.domain .rampingDown (beginFall v s)).trans (.after_dropPower v.domain _)
  exact ((hpower.trans (.after_lostSetFollow _ _)).trans (.foldl Keeps.after_discardStroke _ _)).trans (.after_sleepEntryTest _)

theorem Keeps.after_startDrain (v : Served) (s : State) : Keeps s (startDrain v s) where
  toKeepsOrders := (KeepsOrders.of_domains _).trans (beginFall_startDrain v s).toKeepsOrders
  stood _ := (beginFall_startDrain v s).stood (standDownReported_beginFall v s)

theorem Keeps.after_drainTest (s : State) : Keeps s (drainTest s) := by
  unfold drainTest
  split
  · exact .ite (fun _ => .after_startDrain _ s) fun _ => .refl s
  · exact .refl s

/-! ## Reports of banks that rest stood down (R126, R170) -/

theorem drainTest_of_phase {s : State} (h : ∀ v, s.domains.serving = some v → v.phase ≠ .standingDown) : drainTest s = s := by
  unfold drainTest
  split
  · rename_i v hv
    simp [h v hv]
  · rfl

/-- After the drain test no report but those due is missing, whatever flags were set before. -/
theorem standDownBut_drainTest {due : List BankId} {s : State}
    (h : ∀ v, s.domains.serving = some v → v.phase = .standingDown → ¬(v.lowerDown = true ∧ v.upperDown = true) →
      ∀ b : BankId, b ∉ due → bankDomain b = v.domain → RestsStoodDown s.banks[b] →
        (if b = lowerBank v.domain then v.lowerDown else v.upperDown) = true) : StandDownBut due (drainTest s) := by
  unfold drainTest
  split
  · rename_i v hv
    split
    · have hkeeps := (Keeps.beginFall_startDrain v s).stood (standDownReported_beginFall v s)
      rw [standDownReported_iff] at hkeeps
      intro w hw hphase
      obtain ⟨hboth, hreported⟩ := hkeeps w hw hphase
      exact ⟨hboth, fun b _ => hreported b List.not_mem_nil⟩
    · rename_i hnot
      intro w hw hphase
      cases hv.symm.trans hw
      have hboth : ¬(v.lowerDown = true ∧ v.upperDown = true) := by simpa [hphase] using hnot
      exact ⟨hboth, h v hv hphase hboth⟩
  · rename_i hv
    exact fun w hw => absurd (hv.symm.trans hw) (by simp)

theorem KeepsOrders.after_reportStoodDown (b : BankId) (s : State) : KeepsOrders s (reportStoodDown b s) := by
  unfold reportStoodDown
  split
  · exact .refl s
  · split
    · exact (KeepsOrders.of_domains _).trans (Keeps.after_drainTest _).toKeepsOrders
    · exact .refl s

/-- The banks of a domain are its lower and its upper bank. -/
theorem eq_upperBank {b : BankId} {d : DomainId} (hdomain : bankDomain b = d) (hb : b ≠ lowerBank d) : b = upperBank d := by
  subst hdomain
  have hval : b.val ≠ b.val / 2 * 2 := fun h => hb (Fin.ext h)
  apply Fin.ext
  simp only [upperBank, bankDomain]
  omega

theorem lowerBank_ne_upperBank (d : DomainId) : lowerBank d ≠ upperBank d := by
  intro h
  simpa [lowerBank, upperBank] using congrArg Fin.val h

/-- The report of a bank that was due is made. -/
theorem StandDownBut.after_reportStoodDown {b : BankId} {due : List BankId} {s : State} (h : StandDownBut (b :: due) s) :
    StandDownBut due (reportStoodDown b s) := by
  unfold reportStoodDown
  split
  · rename_i hv
    exact fun w hw => absurd (hv.symm.trans hw) (by simp)
  · rename_i v hv
    split
    · rename_i hserved
      have hdomain : bankDomain b = v.domain := by simp_all
      refine standDownBut_drainTest fun w hw hphase hboth c hc hcdomain hrests => ?_
      by_cases hb : b = lowerBank v.domain
      · rw [← hb] at hw
        simp only [beq_self_eq_true, if_true, Option.some.injEq] at hw
        subst hw
        obtain ⟨-, hreported⟩ := h v hv hphase
        split
        · rfl
        · rename_i hclower
          have hcb : c ≠ b := fun hcb => hclower (hcb.trans hb)
          exact (if_neg hclower).symm.trans (hreported c (by simp [hcb, hc]) hcdomain hrests)
      · simp only [beq_iff_eq, if_neg hb, Option.some.injEq] at hw
        subst hw
        obtain ⟨-, hreported⟩ := h v hv hphase
        split
        · rename_i hclower
          have hcb : c ≠ b := fun hcb => hb (hcb.symm.trans hclower)
          exact (if_pos hclower).symm.trans (hreported c (by simp [hcb, hc]) hcdomain hrests)
        · rfl
    · rename_i hserved
      intro w hw hphase
      cases hv.symm.trans hw
      obtain ⟨hboth, hreported⟩ := h v hv hphase
      refine ⟨hboth, fun c hc hcdomain hrests => hreported c ?_ hcdomain hrests⟩
      rintro (_ | ⟨_, hmem⟩)
      · exact hserved (by simp [hphase, hcdomain])
      · exact hc hmem

/-! ## Banks coming to rest (R126, R127) -/

/-- An operation at one bank keeps the orders, and the reports but that of the bank. -/
structure KeepsBut (b : BankId) (s t : State) : Prop extends KeepsOrders s t where
  stood : StandDownReported s → StandDownBut [b] t

theorem KeepsBut.of_keeps {s t : State} (h : Keeps s t) (b : BankId) : KeepsBut b s t :=
  ⟨h.toKeepsOrders, fun hs => ((standDownReported_iff t).mp (h.stood hs)).cons b⟩

theorem KeepsBut.after_setBank (b : BankId) (k : Bank) (s : State) : KeepsBut b s (setBank b k s) where
  toKeepsOrders := .of_control (by simp [SameControl, SameOrderSide]) id id id
  stood hs := ((standDownReported_iff s).mp hs).after_setBank b k

theorem KeepsBut.trans_same {b : BankId} {s t u : State} (h : KeepsBut b s t) (k : KeepsOrders t u)
    (hserving : u.domains.serving = t.domains.serving) (hbanks : u.banks = t.banks) : KeepsBut b s u where
  toKeepsOrders := h.toKeepsOrders.trans k
  stood hs := (h.stood hs).of_rests hserving fun c _ => by rw [hbanks]; exact id

/-- The bank does not rest stood down: nothing is due. -/
theorem KeepsBut.of_not_rests {b : BankId} {s t : State} (h : KeepsBut b s t) (hb : ¬RestsStoodDown t.banks[b]) : Keeps s t :=
  ⟨h.toKeepsOrders, fun hs => (standDownReported_iff t).mpr ((h.stood hs).of_not_rests hb)⟩

theorem KeepsBut.after_reportStoodDown {b : BankId} {s t : State} (h : KeepsBut b s t) : Keeps s (reportStoodDown b t) :=
  ⟨h.toKeepsOrders.trans (.after_reportStoodDown b t), fun hs => (standDownReported_iff _).mpr (h.stood hs).after_reportStoodDown⟩

theorem KeepsBut.after_enterAsleep {b : BankId} {s t : State} (h : KeepsBut b s t) : Keeps s (enterAsleep b t) := by
  have hbank : KeepsBut b s (setBank b (asleepBank t.banks[b]) t) :=
    ⟨h.toKeepsOrders.trans (KeepsBut.after_setBank b _ t).toKeepsOrders, fun hs => ((h.stood hs).of_rests rfl fun c hc => by
      rw [setBank_banks, getElem_set_other _ _ _ _ (by simpa using hc)]
      exact id)⟩
  have hrest := hbank.trans_same (Keeps.after_setRefresh b (refreshAtRest t.refresh.banks[b]) _).toKeepsOrders rfl rfl
  have htest := hrest.trans_same (Keeps.after_sleepEntryTest _).toKeepsOrders (by simp) (by simp)
  unfold enterAsleep
  dsimp only
  split
  · exact htest.after_reportStoodDown
  · rename_i hdown
    refine htest.of_not_rests fun hrests => hdown ?_
    simpa [asleepBank] using hrests.1

/-- A bank that has come to IDLE sleeps, stands down or decides. -/
theorem KeepsBut.after_restOrDecide {b : BankId} {s t : State} (h : KeepsBut b s t) : Keeps s (restOrDecide b t) := by
  refine .ite (fun _ => h.after_enterAsleep) fun _ => .ite (fun _ => h.after_reportStoodDown) fun hdown => ?_
  exact (h.of_not_rests fun hrests => hdown hrests.1).trans (.after_bankDecide b t)

theorem Keeps.after_closeOrDecide (b : BankId) (s : State) : Keeps s (closeOrDecide b s) :=
  .ite (fun _ => .ite (fun _ => .after_setBank fun hrests => by simp [RestsStoodDown, startClose] at hrests) fun _ => .refl s)
    fun _ => .after_bankDecide b s

theorem Keeps.after_sleepEntryAt (b : BankId) (s : State) : Keeps s (sleepEntryAt b s) := by
  unfold sleepEntryAt
  split
  · exact .refl s
  · exact .refl s
  · exact (KeepsBut.of_keeps (.refl s) b).after_enterAsleep
  · exact .after_setBank fun hrests => by simp [RestsStoodDown, startClose] at hrests
  all_goals exact .after_setBank id

theorem Keeps.after_startSleepEntry {s : State} (h : s.arrayMode.mode ≠ .waking) : Keeps s (startSleepEntry s) := by
  have hmode : Keeps s { s with arrayMode := { s.arrayMode with mode := .enteringSleep, idleTimer := none } } :=
    .of_mode _ fun hs => ⟨by simp, by simpa [h] using hs.2⟩
  have hasked := hmode.trans (.after_requestHeaderUpdate _)
  exact (hasked.trans (.foldl (f := fun t b => sleepEntryAt b t) (fun t b => .after_sleepEntryAt b t) allBanks _)).trans
    (.after_sleepEntryTest _)

/-! ## The switch controller (R168 to R170) -/

theorem KeepsOrders.after_standDownAt (b : BankId) (s : State) : KeepsOrders s (standDownAt b s) := by
  have hbank (k : Bank) : KeepsOrders s (setBank b k s) := (KeepsBut.after_setBank b k s).toKeepsOrders
  unfold standDownAt
  split
  · exact .refl s
  · exact (hbank _).trans (.after_reportStoodDown b _)
  · exact (hbank _).trans (.after_reportStoodDown b _)
  all_goals exact hbank _

theorem not_rests_of_state {k : Bank} {x : BankState} (h : k.state = x) (hx : x ≠ .idle ∧ x ≠ .asleep) : ¬RestsStoodDown k := by
  rintro ⟨-, hidle | hasleep⟩
  · exact hx.1 (h.symm.trans hidle)
  · exact hx.2 (h.symm.trans hasleep)

/-- A stand-down request makes the report of its bank, if the bank is at rest. -/
theorem StandDownBut.after_standDownAt {b : BankId} {due : List BankId} {s : State} (h : StandDownBut (b :: due) s) :
    StandDownBut due (standDownAt b s) := by
  have hbank (k : Bank) : StandDownBut (b :: due) (setBank b k s) := h.of_rests rfl fun c hc => by
    rw [setBank_banks, getElem_set_other _ _ _ _ (List.ne_of_not_mem_cons hc)]
    exact id
  have hbusy {k : Bank} (hk : ¬RestsStoodDown k) : StandDownBut due (setBank b k s) :=
    (hbank k).of_not_rests (by rwa [setBank_banks, getElem_set_same])
  unfold standDownAt
  split
  · rename_i hstate
    exact h.of_not_rests (not_rests_of_state hstate (by simp))
  · exact (hbank _).after_reportStoodDown
  · exact (hbank _).after_reportStoodDown
  · exact hbusy (not_rests_of_state (x := .closing) rfl (by simp))
  all_goals
    rename_i hstate
    exact hbusy (not_rests_of_state hstate (by simp))

theorem Keeps.after_startRampUp (q : DomainRequest) (s : State) : Keeps s (startRampUp q s) := by
  refine Keeps.trans ⟨KeepsOrders.of_domains _, fun _ => standDownReported_of_phase fun v hv => ?_⟩ (.after_setDomain _ _ _)
  cases hv
  exact nofun

theorem Keeps.after_startStandDown (q : DomainRequest) (s : State) : Keeps s (startStandDown q s) where
  toKeepsOrders := ((KeepsOrders.of_domains _).trans (.after_standDownAt _ _)).trans (.after_standDownAt _ _)
  stood _ := by
    refine (standDownReported_iff _).mpr (StandDownBut.after_standDownAt (StandDownBut.after_standDownAt fun v hv _ => ?_))
    cases hv
    refine ⟨by simp, fun b hb hdomain _ => absurd ?_ hb⟩
    by_cases hlower : b = lowerBank q.domain
    · simp [hlower]
    · simp [eq_upperBank hdomain hlower]

theorem Keeps.after_popRequest (s : State) : Keeps s (popRequest s) :=
  .of_same (by simp [SameControl, SameOrderSide]) (by simp [SameCells]) (by simp [popRequest])

theorem Keeps.after_takeRequests (fuel : Nat) (s : State) : Keeps s (takeRequests fuel s) := by
  induction fuel generalizing s with
  | zero => exact .refl s
  | succ fuel ih =>
    unfold takeRequests
    split
    · have hpop := Keeps.after_popRequest s
      exact .ite (fun _ => (hpop.trans (.after_powerComplete _ _)).trans (ih _)) fun _ =>
        .ite (fun _ => hpop.trans (.after_startRampUp _ _)) fun _ => hpop.trans (.after_startStandDown _ _)
    · exact .refl s

theorem Keeps.after_switchTakes (s : State) : Keeps s (switchTakes s) := .after_takeRequests _ s

/-- The switch controller IDLE again: no domain stands down. -/
theorem KeepsOrders.after_endRamp {s t : State} (h : KeepsOrders s t) (v : Served) : Keeps s (endRamp v t) := by
  have hidle : Keeps s { t with domains := { t.domains with serving := none, rampTimer := none } } :=
    ⟨h.trans (.of_domains _), fun _ => standDownReported_of_phase nofun⟩
  exact (hidle.trans (.after_powerComplete _ _)).trans (.after_switchTakes _)

theorem Keeps.after_powerUpBank (b : BankId) (s : State) : Keeps s (powerUpBank b s) :=
  .after_setBank fun hrests => by simp [RestsStoodDown] at hrests

theorem Keeps.after_finishRampUp (v : Served) (s : State) : Keeps s (finishRampUp v s) := by
  have hpower := ((Keeps.after_setDomain v.domain .on s).trans (.after_powerUpBank (lowerBank v.domain) _)).trans
    (.after_powerUpBank (upperBank v.domain) _)
  have hregions : Keeps s (domainBecomes v.domain .dropped _) := hpower.trans (.after_mapRegions _ _)
  have hdecide := (hregions.trans (.after_bankDecide (lowerBank v.domain) _)).trans (.after_bankDecide (upperBank v.domain) _)
  exact hdecide.toKeepsOrders.after_endRamp v

theorem Keeps.after_finishRampDown (v : Served) (s : State) : Keeps s (finishRampDown v s) :=
  (Keeps.after_setDomain v.domain .off s).toKeepsOrders.after_endRamp v

/-! ## Wake (R128, R176, R177) -/

theorem Keeps.after_wakeBank (b : BankId) (s : State) : Keeps s (wakeBank b s) := by
  refine .ite (fun hasleep => (Keeps.after_setBank fun hrests => ?_).trans (.after_setRefresh _ _ _)) fun _ => .refl s
  exact ⟨hrests.1, .inr (by simpa using hasleep)⟩

theorem Keeps.after_wakeBanks (s : State) : Keeps s (wakeBanks s) := by
  have hrun : Keeps s { s with arrayMode := { s.arrayMode with mode := .run, wakeTimer := none } } :=
    .of_mode _ fun _ => ⟨by simp, by simp⟩
  exact (hrun.trans (.after_requestHeaderUpdate _)).trans (.foldl (fun t b => .after_wakeBank b t) _ _)

theorem wakeBanks_mode (s : State) : (wakeBanks s).arrayMode.mode = .run := by
  unfold wakeBanks
  rw [foldl_arrayMode_mode _ _ _ (by simp)]
  simp

theorem Keeps.after_finishWake (s : State) : Keeps s (finishWake s) := by
  have hflag : Keeps s { s with arrayMode := { s.arrayMode with forcedSleep := false } } := .of_mode _ id
  refine .ite (fun _ => ?_) fun _ => ?_
  · exact (hflag.trans (.after_wakeBanks _)).trans (.after_startSleepEntry (by simp [wakeBanks_mode]))
  · exact (Keeps.after_wakeBanks s).trans (.foldl (fun t b => .after_bankDecide b t) _ _)

end Sys2Proof.Safety
end

section
/-! PROOFS. The start of orders, admission, MARK, cancel and halt keep the invariants (R54 to R64, R77 to R88), and so do the follow-ups of an event. -/

namespace Sys2Proof.Safety

open Sys2Proof.Machine

/-! ## The interlock of a start test (R77) -/

theorem mem_allLanes (l : Lane) : l ∈ allLanes := by
  revert l
  decide

/-- The interlock lets an order start when no other entry holds it back (R77). -/
theorem interlockFails_eq_false_iff (s : State) (l : Lane) (x : PoolOrder) (f : Footprint) : interlockFails s l x f = false ↔
    ∀ m d y g, m ≠ l → laneEntry s m = some d → laneOrder s m = some y → d.footprint = some g → g.conflicts f = true →
      seqBefore y.seq x.seq = false ∧ y.life ≠ .running ∧ y.life ≠ .stopping := by
  rw [interlockFails, List.any_eq_false]
  constructor
  · intro h m d y g hm hd hy hg hconflict
    have hclear := h m (mem_allLanes m)
    simp only [holdsBack, hd, hy, hg] at hclear
    simpa [hm, hconflict, and_assoc] using hclear
  · intro h m _
    unfold holdsBack
    by_cases hm : m = l
    · simp [hm]
    · split
      · rename_i d y hd hy
        cases hg : d.footprint with
        | none => simp
        | some g =>
          cases hconflict : g.conflicts f with
          | false => simp [hconflict]
          | true =>
            obtain ⟨hseq, hrunning, hstopping⟩ := h m d y g hm hd hy hg hconflict
            simp [hseq, hrunning, hstopping]
      · simp

/-- An order at work in another lane does not conflict with one that the interlock lets start. -/
theorem conflicts_eq_false_of_interlock {s : State} {l m : Lane} {x y : PoolOrder} {d : TableEntry} {f g : Footprint}
    (h : interlockFails s l x f = false) (hm : m ≠ l) (hwork : AtWork s m d y) (hg : d.footprint = some g) : f.conflicts g = false := by
  obtain ⟨hd, hy, hlife⟩ := hwork
  rw [conflicts_comm]
  refine Bool.eq_false_iff.mpr fun hconflict => ?_
  obtain ⟨-, hrunning, hstopping⟩ :=
    (interlockFails_eq_false_iff s l x f).mp h m d y g hm hd ((laneOrder_of_entry hd).trans hy) hg hconflict
  exact hlife.elim hrunning hstopping

/-! ## Start (R80, R82) -/

/-- A WAITING order becomes RUNNING and its entry is marked started (R80). -/
def beginLane (l : Lane) (s : State) : State :=
  updateLane l (fun o => { o with life := .running }) (fun e => { e with wait := none, started := true }) s

/-- A WAITING order with its footprint, which the interlock lets start. -/
structure MayStart (s : State) (l : Lane) (e : TableEntry) (o : PoolOrder) (f : Footprint) : Prop where
  entry : laneEntry s l = some e
  order : slotOrder s e.slot = some o
  footprint : e.footprint = some f
  waiting : o.life = .waiting
  clear : interlockFails s l o f = false

theorem beginLane_laneStep {s : State} {l : Lane} {e : TableEntry} {o : PoolOrder} (he : laneEntry s l = some e)
    (ho : slotOrder s e.slot = some o) :
    LaneStep s (beginLane l s) l e { e with wait := none, started := true } o { o with life := .running } :=
  updateLane_laneStep (f := fun o => { o with life := .running }) (g := fun e => { e with wait := none, started := true }) he ho rfl rfl
    fun _ => by simp

theorem laneLife_beginLane {s : State} {l : Lane} {e : TableEntry} {o : PoolOrder} (he : laneEntry s l = some e)
    (ho : slotOrder s e.slot = some o) : laneLife (beginLane l s) l = some .running := by
  rw [laneLife, (beginLane_laneStep he ho).order_same]
  rfl

theorem MayStart.keepsTable {s : State} {l : Lane} {e : TableEntry} {o : PoolOrder} {f : Footprint} (h : MayStart s l e o f)
    (hs : OrdersPlaced s) : KeepsTable s (beginLane l s) := by
  have hstep := beginLane_laneStep h.entry h.order
  have hgenerators : (beginLane l s).strokes.generators = s.strokes.generators := by simp [beginLane]
  refine ⟨hstep.placed hs fun i => ?_, fun hgen => hstep.generatorsRun hs (fun m _ => by rw [hgenerators]) (fun g hg => ?_) hgen,
    fun hlock => hstep.interlockHolds hs (fun _ => id) (fun _ => ⟨?_, fun m d y f' g hm hwork hf hg => ?_⟩) hlock⟩
  · rw [reportWrites_congr (s := s) (by simp [beginLane])]
    refine ⟨hs.writes_le i, fun hi => ?_⟩
    obtain ⟨x, hx, hreporting⟩ := hs.write_reporting hi
    refine ⟨x, ?_, hreporting⟩
    rw [hstep.slots, if_neg, hx]
    rintro rfl
    cases hx.symm.trans h.order
    exact absurd (h.waiting.symm.trans hreporting) (by decide)
  · rw [hgenerators] at hg
    obtain ⟨x, hx, hwork, -⟩ := hgen l g hg
    rw [laneOrder_of_entry h.entry, h.order] at hx
    cases hx
    rw [h.waiting] at hwork
    simp at hwork
  · simp [h.footprint]
  · cases h.footprint.symm.trans hf
    exact conflicts_eq_false_of_interlock h.clear hm hwork hg

theorem MayStart.keeps {s : State} {l : Lane} {e : TableEntry} {o : PoolOrder} {f : Footprint} (h : MayStart s l e o f) :
    Keeps s (beginLane l s) := by
  refine .of_table ⟨⟨by simp [beginLane], by simp [beginLane], by simp [beginLane], by simp [beginLane]⟩, by simp [beginLane],
    by simp [beginLane], by simp [beginLane], occupied_congr fun i => updateLane_isSome l _ _ s i⟩ (fun hs => ?_)
    (by simp [SameArea, SameCells, beginLane]) h.keepsTable
  simpa [HeaderFlagAgrees, beginLane] using hs

theorem laneLife_congr {s t : State} (hslots : t.pool.slots = s.pool.slots) (htable : t.table = s.table) (l : Lane) :
    laneLife t l = laneLife s l := by
  rw [laneLife, laneLife, laneOrder_congr hslots htable]

theorem Keeps.after_startDrop {s : State} {l : Lane} (h : laneLife s l = some .running) (f : Footprint) : Keeps s (startDrop l f s) := by
  refine (((Keeps.after_mapRegions _ s).trans (.after_handAllK _)).trans (.after_lostSetFollow _ _)).trans
    (.after_toReporting_of_life _ (x := .running) ?_ (by decide))
  rwa [laneLife_congr (s := s) (by simp) (by simp)]

theorem Keeps.after_startKeep {s : State} {l : Lane} (h : laneLife s l = some .running) (o : PoolOrder) (f : Footprint) :
    Keeps s (startKeep l o f s) := by
  unfold startKeep
  dsimp only
  refine .ite (fun _ => .after_toReporting_of_life _ h (by decide)) fun _ => ?_
  refine ((((Keeps.after_mapRegions _ s).trans (.after_handAllK _)).trans (.after_lostSetFollow _ _)).trans
    (.after_setGenerator fun _ _ => .inr ?_)).trans (.after_issueMore l _)
  rwa [laneLife_congr (s := s) (by simp) (by simp)]

theorem Keeps.after_startPower {s : State} {l : Lane} (h : laneLife s l = some .running) (o : PoolOrder) : Keeps s (startPower l o s) := by
  refine .ite (fun _ => .after_toReporting_of_life _ h (by decide)) fun _ => Keeps.trans ?_ (.after_switchTakes _)
  exact .of_same (by simp [SameControl, SameOrderSide]) (by simp [SameCells]) (by simp)

theorem MayStart.keeps_startOrder {s : State} {l : Lane} {e : TableEntry} {o : PoolOrder} {f : Footprint} (h : MayStart s l e o f)
    (k : OrderKind) : Keeps s (startOrder l o k f s) := by
  have hlife := laneLife_beginLane h.entry h.order
  refine h.keeps.trans ?_
  cases k with
  | load | fetch | copy | fill | scrub => exact (Keeps.after_setGenerator fun _ _ => .inr hlife).trans (.after_issueMore l _)
  | retain => exact .ite (fun _ => .after_startKeep hlife o f) fun _ => .after_startDrop hlife f
  | power => exact .after_startPower hlife o
  | mark => exact .refl _

/-! ## The start test (R80) -/

theorem Keeps.after_testOrder {s : State} {l : Lane} {e : TableEntry} {o : PoolOrder} {f : Footprint} (he : laneEntry s l = some e)
    (ho : slotOrder s e.slot = some o) (hf : e.footprint = some f) (hlife : o.life = .waiting) (k : OrderKind) :
    Keeps s (testOrder l o k f s) := by
  refine .ite (fun _ => .after_setWait l _ s) fun hclear => ?_
  split
  · refine .after_toReporting _ fun _ x hx => ?_
    cases ((laneOrder_of_entry he).trans ho).symm.trans hx
    simp [hlife]
  · have hstart : MayStart s l e o f := ⟨he, ho, hf, hlife, by simpa using hclear⟩
    exact .ite (fun _ => hstart.keeps_startOrder k) fun _ => (Keeps.after_setWait l _ s).trans (.after_wakeFollow _)

theorem Keeps.after_runStartTest (l : Lane) (s : State) : Keeps s (runStartTest l s) := by
  unfold runStartTest
  split
  · rename_i e o he ho
    split
    · rename_i f k hf _
      refine .ite (fun hwaits => ?_) fun _ => .refl s
      exact .after_testOrder he ((laneOrder_of_entry he).symm.trans ho) hf (by simp_all) k
    · exact .refl s
  · exact .refl s

theorem Keeps.after_testLanes (s : State) : Keeps s (testLanes s) := .foldl (fun t l => .after_runStartTest l t) _ s

theorem Keeps.after_startTests (s : State) : Keeps s (startTests s) :=
  (((Keeps.after_testLanes s).trans (.after_testLanes _)).trans (.after_testLanes _)).trans (.after_testLanes _)

theorem Keeps.after_retestIfMoved (before s : State) : Keeps s (retestIfMoved before s) :=
  .ite (fun _ => .refl s) fun _ => .after_startTests s

/-! ## MARK (R58) and promotion (R54, R55, R71, R73) -/

theorem laneLife_of_waits {s : State} {l : Lane} {w : WaitReason} (h : laneWaits s l w = true) : laneLife s l = some .waiting := by
  simp only [laneWaits, Bool.and_eq_true, beq_iff_eq] at h
  exact h.1

theorem Keeps.after_markTest (l : Lane) (s : State) : Keeps s (markTest l s) := by
  unfold markTest
  split
  · refine .ite (fun hmark => .after_toReporting_of_life _ (x := .waiting) (laneLife_of_waits (w := .earlier) ?_) (by decide)) fun _ => .refl s
    simp only [Bool.and_eq_true] at hmark
    exact hmark.1.1.1
  · exact .refl s

theorem Keeps.after_markTests (s : State) : Keeps s (markTests s) := .foldl (fun t l => .after_markTest l t) _ s

/-- The head of a lane queue leaves it and is WAITING in the lane's entry. -/
def queueToLane (l : Lane) (i : SlotId) (rest : List SlotId) (o : PoolOrder) (f : Option Footprint) (w : Option WaitReason) (s : State) : State :=
  placeEntry l i f w (setSlot i (some { o with life := .waiting }) { s with pool := { s.pool with queues := s.pool.queues.set l rest } })

/-- The head of a lane queue, its lane's entry EMPTY. -/
structure AtHead (s : State) (l : Lane) (i : SlotId) (rest : List SlotId) (o : PoolOrder) : Prop where
  empty : laneEntry s l = none
  queue : s.pool.queues[l] = i :: rest
  order : slotOrder s i = some o

section Admit

variable {s : State} {l : Lane} {i : SlotId} {rest : List SlotId} {o : PoolOrder} {f : Option Footprint} {w : Option WaitReason}

theorem slotOrder_queueToLane (j : SlotId) :
    slotOrder (queueToLane l i rest o f w s) j = if j = i then some { o with life := .waiting } else slotOrder s j := slotOrder_setSlot i j _ _

theorem laneEntry_queueToLane (m : Lane) : laneEntry (queueToLane l i rest o f w s) m =
    if m = l then some { slot := i, wait := w, footprint := f, started := false } else laneEntry s m := laneEntry_setEntry l m _ _

theorem laneOrder_queueToLane_same : laneOrder (queueToLane l i rest o f w s) l = some { o with life := .waiting } := by
  rw [laneOrder_of_entry (by rw [laneEntry_queueToLane, if_pos rfl]), slotOrder_queueToLane, if_pos rfl]

theorem AtHead.queued (h : AtHead s l i rest o) (hs : OrdersPlaced s) : o.entry.lane = l ∧ o.life = .queued := by
  obtain ⟨x, hx, hlane, hlife⟩ := hs.queue_order (l := l) (i := i) (by rw [h.queue]; exact List.mem_cons_self)
  cases hx.symm.trans h.order
  exact ⟨hlane, hlife⟩

/-- An entry of the table before holds another slot than the one admitted. -/
theorem AtHead.slot_ne (h : AtHead s l i rest o) (hs : OrdersPlaced s) {m : Lane} {d : TableEntry} (hd : laneEntry s m = some d) :
    d.slot ≠ i := by
  rintro rfl
  obtain ⟨x, hx, -, hlife⟩ := hs.entry_order hd
  cases hx.symm.trans h.order
  exact hlife (h.queued hs).2

theorem AtHead.lane_ne (h : AtHead s l i rest o) {m : Lane} {d : TableEntry} (hd : laneEntry s m = some d) : m ≠ l := by
  rintro rfl
  exact absurd (hd.symm.trans h.empty) (by simp)

theorem AtHead.queue_mem (h : AtHead s l i rest o) (hs : OrdersPlaced s) {m : Lane} {j : SlotId} :
    j ∈ (queueToLane l i rest o f w s).pool.queues[m] ↔ j ∈ s.pool.queues[m] ∧ j ≠ i := by
  have hqueues : (queueToLane l i rest o f w s).pool.queues = s.pool.queues.set l rest := rfl
  rw [hqueues]
  by_cases hm : m = l
  · subst hm
    rw [getElem_set_same, h.queue]
    have hnodup := hs.queue_nodup m
    rw [h.queue, List.nodup_cons] at hnodup
    constructor
    · exact fun hj => ⟨List.mem_cons_of_mem i hj, fun heq => hnodup.1 (heq ▸ hj)⟩
    · rintro ⟨hj, hne⟩
      exact (List.mem_cons.mp hj).resolve_left hne
  · rw [getElem_set_other _ _ _ _ hm]
    refine ⟨fun hj => ⟨hj, ?_⟩, And.left⟩
    rintro rfl
    obtain ⟨x, hx, hlane, -⟩ := hs.queue_order hj
    cases hx.symm.trans h.order
    exact hm (hlane.symm.trans (h.queued hs).1)

theorem AtHead.queue_nodup (h : AtHead s l i rest o) (hs : OrdersPlaced s) (m : Lane) :
    (queueToLane l i rest o f w s).pool.queues[m].Nodup := by
  have hqueues : (queueToLane l i rest o f w s).pool.queues = s.pool.queues.set l rest := rfl
  have hnodup := hs.queue_nodup m
  rw [hqueues]
  by_cases hm : m = l
  · subst hm
    rw [h.queue, List.nodup_cons] at hnodup
    rw [getElem_set_same]
    exact hnodup.2
  · rwa [getElem_set_other _ _ _ _ hm]

theorem AtHead.placed (h : AtHead s l i rest o) (hs : OrdersPlaced s) : OrdersPlaced (queueToLane l i rest o f w s) := by
  obtain ⟨hlane, hlife⟩ := h.queued hs
  have hother {j : SlotId} (hj : j ≠ i) : slotOrder (queueToLane l i rest o f w s) j = slotOrder s j := by rw [slotOrder_queueToLane, if_neg hj]
  have hsame : slotOrder (queueToLane l i rest o f w s) i = some { o with life := .waiting } := by rw [slotOrder_queueToLane, if_pos rfl]
  refine ⟨fun m d hd => ?_, fun m => ⟨h.queue_nodup hs m, fun j hj => ?_⟩, fun j x hx hqueued => ?_, fun j x hx hheld => ?_, fun j => ?_⟩
  · rw [laneEntry_queueToLane] at hd
    split at hd
    · rename_i hm
      cases hd
      exact ⟨_, hsame, hlane.trans hm.symm, by simp⟩
    · rw [hother (h.slot_ne hs hd)]
      exact hs.entry_order hd
  · obtain ⟨hj, hne⟩ := (h.queue_mem hs).mp hj
    rw [hother hne]
    exact hs.queue_order hj
  · by_cases hj : j = i
    · rw [hj, hsame] at hx
      cases hx
      simp at hqueued
    · rw [hother hj] at hx
      exact (h.queue_mem hs).mpr ⟨hs.queued hx hqueued rfl, hj⟩
  · by_cases hj : j = i
    · rw [hj, hsame] at hx
      cases hx
      exact ⟨_, by rw [laneEntry_queueToLane, if_pos hlane], hj.symm⟩
    · rw [hother hj] at hx
      obtain ⟨d, hd, hslot⟩ := hs.held hx hheld
      exact ⟨d, by rw [laneEntry_queueToLane, if_neg (h.lane_ne hd), hd], hslot⟩
  · rw [reportWrites_congr (s := s) (by simp [queueToLane])]
    refine ⟨hs.writes_le j, fun hj => ?_⟩
    obtain ⟨x, hx, hreporting⟩ := hs.write_reporting hj
    refine ⟨x, ?_, hreporting⟩
    rw [hother, hx]
    rintro rfl
    cases hx.symm.trans h.order
    exact absurd (hlife.symm.trans hreporting) (by decide)

theorem AtHead.laneOrder_other (h : AtHead s l i rest o) (hs : OrdersPlaced s) {m : Lane} (hm : m ≠ l) :
    laneOrder (queueToLane l i rest o f w s) m = laneOrder s m := by
  unfold laneOrder
  rw [laneEntry_queueToLane, if_neg hm]
  cases hd : laneEntry s m with
  | none => rfl
  | some d =>
    show slotOrder _ d.slot = slotOrder s d.slot
    rw [slotOrder_queueToLane, if_neg (h.slot_ne hs hd)]

theorem AtHead.generatorsRun (h : AtHead s l i rest o) (hs : OrdersPlaced s) (hgen : GeneratorsRun s) :
    GeneratorsRun (queueToLane l i rest o f w s) := by
  intro m g hg
  have hgenerators : (queueToLane l i rest o f w s).strokes = s.strokes := by simp [queueToLane]
  rw [hgenerators] at hg
  obtain ⟨x, hx, hrest⟩ := hgen m g hg
  obtain ⟨d, hd, -⟩ := laneOrder_eq_some hx
  exact ⟨x, (h.laneOrder_other hs (h.lane_ne hd)).trans hx, hrest⟩

/-- An admitted order is not at work, so every order at work was before. -/
theorem AtHead.atWork (h : AtHead s l i rest o) (hs : OrdersPlaced s) {m : Lane} {d : TableEntry} {y : PoolOrder}
    (hwork : AtWork (queueToLane l i rest o f w s) m d y) : AtWork s m d y := by
  obtain ⟨hd, hy, hlife⟩ := hwork
  rw [laneEntry_queueToLane] at hd
  split at hd
  · cases hd
    rw [slotOrder_queueToLane, if_pos rfl] at hy
    cases hy
    simp at hlife
  · rw [slotOrder_queueToLane, if_neg (h.slot_ne hs hd)] at hy
    exact ⟨hd, hy, hlife⟩

theorem AtHead.interlockHolds (h : AtHead s l i rest o) (hs : OrdersPlaced s)
    (hf : ∀ g, f = some g → ∃ k, o.kind = some k ∧ g = footprintOf o.entry k) (hlock : InterlockHolds s) :
    InterlockHolds (queueToLane l i rest o f w s) := by
  obtain ⟨howns, hhas, hclear⟩ := hlock
  refine ⟨fun m d x g hd hx hg => ?_, fun m d x hwork => hhas m d x (h.atWork hs hwork),
    fun m n d e x y p q hne hx hy => hclear m n d e x y p q hne (h.atWork hs hx) (h.atWork hs hy)⟩
  rw [laneEntry_queueToLane] at hd
  split at hd
  · cases hd
    rw [slotOrder_queueToLane, if_pos rfl] at hx
    cases hx
    exact hf g hg
  · rw [slotOrder_queueToLane, if_neg (h.slot_ne hs hd)] at hx
    exact howns m d x g hd hx hg

theorem AtHead.keeps (h : AtHead s l i rest o) (w : Option WaitReason)
    (hf : ∀ g, f = some g → ∃ k, o.kind = some k ∧ g = footprintOf o.entry k) : Keeps s (queueToLane l i rest o f w s) := by
  refine .of_table ⟨⟨by simp [queueToLane], by simp [queueToLane], by simp [queueToLane], by simp [queueToLane]⟩, by simp [queueToLane], by simp [queueToLane], by simp [queueToLane],
    occupied_congr fun j => ?_⟩ (fun hs => ?_) (by simp [SameArea, SameCells, queueToLane])
    fun hs => ⟨h.placed hs, h.generatorsRun hs, h.interlockHolds hs hf⟩
  · rw [slotOrder_queueToLane]
    split
    · rename_i hj
      rw [hj, h.order]
      rfl
    · rfl
  · simpa [HeaderFlagAgrees, queueToLane] using hs

/-- What an order reports does not depend on the lifecycle state it comes from. -/
theorem toReporting_queueToLane (ho : slotOrder s i = some o) (r : OrderResult) :
    toReporting l r (placeEntry l i f w { s with pool := { s.pool with queues := s.pool.queues.set l rest } })
      = toReporting l r (queueToLane l i rest o f w s) := by
  have hslot : s.pool.slots[i] = some o := ho
  simp [toReporting, queueToLane, placeEntry, updateLane, laneEntry, slotOrder, setEntry, setSlot, setGenerator, hslot, reportSlot]

end Admit

theorem staticCheck_kind {e : EntryWords} (h : staticCheck e = none) : ∃ k, e.kind = some k := by
  cases hk : e.kind with
  | none => simp [staticCheck, hk] at h
  | some k => exact ⟨k, rfl⟩

theorem keeps_toReporting_queueToLane {s : State} {l : Lane} {i : SlotId} {rest : List SlotId} {o : PoolOrder} (h : AtHead s l i rest o)
    (r : OrderResult) : Keeps s (toReporting l r (queueToLane l i rest o none none s)) :=
  (h.keeps none (fun _ hg => absurd hg (by simp))).trans (.after_toReporting r fun _ x hx => by
    cases laneOrder_queueToLane_same.symm.trans hx
    simp)

theorem Keeps.after_promote (l : Lane) (s : State) : Keeps s (promote l s) := by
  unfold promote
  split
  · rename_i i rest hempty hqueue
    split
    · rename_i o ho
      have hhead : AtHead s l i rest o := ⟨hempty, hqueue, ho⟩
      refine .ite (fun _ => .ite (fun _ => ?_) fun _ => ?_) fun _ => .refl s
      · rw [toReporting_queueToLane ho]
        exact keeps_toReporting_queueToLane hhead _
      · unfold enterTable
        split
        · exact keeps_toReporting_queueToLane hhead _
        · rename_i hk
          exact (hhead.keeps (some .earlier) fun g hg => ⟨.mark, hk, (Option.some.inj hg).symm⟩).trans (.after_markTest l _)
        · rename_i k _ _ hk
          exact (hhead.keeps none fun g hg => ⟨k, hk, (Option.some.inj hg).symm⟩).trans (.after_runStartTest l _)
        · rename_i hcheck hk
          obtain ⟨k, hkind⟩ := staticCheck_kind hcheck
          exact absurd (hk.symm.trans hkind) (by simp)
    · exact .refl s
  · exact .refl s

/-! ## Cancel (R60 to R64) -/

theorem Keeps.after_setCancelStatus (c : CancelStatus) (s : State) : Keeps s (setCancelStatus c s) :=
  .of_same (by simp [SameControl, SameOrderSide]) (by simp [SameCells]) (by simp)

theorem Keeps.of_cancelList {s : State} (q : List Word) (hq : CancelListLegal s → q.length ≤ 4 ∧ q.Nodup) :
    Keeps s { s with pool := { s.pool with cancelList := q } } :=
  ⟨⟨⟨id, id, hq, id, id, id, fun _ => id, fun _ => id⟩, ⟨⟨rfl, rfl, rfl, rfl⟩, rfl, rfl, rfl⟩⟩, id⟩

theorem Keeps.after_cancelUntaken (q : Word) (s : State) : Keeps s (cancelUntaken q s) := by
  refine .ite (fun _ => .after_setCancelStatus _ s) fun hnew => .ite (fun hroom => ?_) fun _ => .after_setCancelStatus _ s
  refine (Keeps.of_cancelList (s.pool.cancelList ++ [q]) fun ⟨_, hnodup⟩ => ⟨?_, ?_⟩).trans (.after_setCancelStatus _ _)
  · simp only [Config.maxCancels] at hroom
    rw [List.length_append, List.length_singleton]
    omega
  · refine List.nodup_append.mpr ⟨hnodup, List.pairwise_singleton _ q, fun x hx y hy hxy => hnew ?_⟩
    rw [← List.mem_singleton.mp hy, ← hxy]
    exact List.contains_iff_mem.mpr hx

/-- A slot's order is written again with the same words and lifecycle state. -/
theorem Keeps.after_setSlot {i : SlotId} {o x : PoolOrder} {s : State} (ho : slotOrder s i = some o) (hx : orderView x = orderView o) :
    Keeps s (setSlot i (some x) s) := by
  have hviews : SameViews s (setSlot i (some x) s) := by
    refine ⟨fun j => ?_, fun m => rfl⟩
    rw [slotOrder_setSlot]
    split
    · rename_i hj
      rw [hj, ho, Option.map_some, Option.map_some, hx]
    · rfl
  refine .of_table ⟨⟨rfl, rfl, rfl, rfl⟩, rfl, rfl, rfl, hviews.occupied⟩ id (by simp [SameArea, SameCells])
    (hviews.keepsTable rfl (fun i => reportWrites_congr (by simp) i) fun _ g hg => ⟨g, hg, id⟩)

theorem Keeps.after_withdrawRequest (n : OrderName) (s : State) : Keeps s (withdrawRequest n s) :=
  .of_same (by simp [SameControl, SameOrderSide]) (by simp [SameCells]) (by simp [withdrawRequest])

theorem Keeps.after_cancelRunning (l : Lane) (o : PoolOrder) (s : State) : Keeps s (cancelRunning l o s) :=
  .ite (fun _ => .after_setCancelStatus _ s) fun _ =>
    ((Keeps.after_setCancelStatus _ s).trans (.after_withdrawRequest _ _)).trans (.after_toStopping _ _ _)

/-- The order of a slot that is not QUEUED is the one its lane holds. -/
theorem OrdersPlaced.laneOrder_of_slot {s : State} (h : OrdersPlaced s) {i : SlotId} {o : PoolOrder} (ho : slotOrder s i = some o)
    (hlife : o.life ≠ .queued) : laneOrder s o.entry.lane = some o := by
  obtain ⟨e, he, hslot⟩ := h.held ho hlife
  rw [laneOrder_of_entry he, hslot, ho]

theorem Keeps.after_cancelTaken {i : SlotId} {o : PoolOrder} {s : State} (ho : slotOrder s i = some o) : Keeps s (cancelTaken i o s) := by
  unfold cancelTaken
  split
  · have hmark := Keeps.after_setSlot (x := { o with cancelMark := true }) ho rfl
    exact hmark.trans (.after_setCancelStatus _ _)
  · rename_i hlife
    refine (Keeps.after_setCancelStatus _ s).trans (.after_toReporting _ fun hs x hx => ?_)
    have hlane := hs.laneOrder_of_slot (i := i) (o := o) ho (by simp [hlife])
    cases hlane.symm.trans hx
    simp [hlife]
  · exact .after_cancelRunning _ o s
  · exact .after_setCancelStatus _ s
  · exact .after_setCancelStatus _ s

theorem Keeps.after_cancelOrder (q : Word) (s : State) : Keeps s (cancelOrder q s) := by
  refine .ite (fun _ => .after_setCancelStatus _ s) fun _ => .ite (fun _ => .after_cancelUntaken q s) fun _ => ?_
  split
  · exact .after_setCancelStatus _ s
  · split
    · exact .after_cancelTaken ‹_›
    · exact .after_setCancelStatus _ s

theorem Keeps.after_haltLane (l : Lane) (s : State) : Keeps s (haltLane l s) := by
  unfold haltLane
  split
  · exact .refl s
  · exact .ite (fun _ => (Keeps.after_withdrawRequest _ s).trans (.after_toStopping _ _ _)) fun _ => .refl s

end Sys2Proof.Safety
end

section
/-! PROOFS. What the events of the intake, the channel and the engine keep of the invariants that do not speak of the intake's own requests. -/

namespace Sys2Proof.Safety

open Sys2Proof.Machine

/-! ## The relation -/

/-- The invariants that hold apart from the intake's requests and the pool's counts pass from `s` to `t`. -/
structure KeepsBase (s t : State) : Prop extends KeepsCore s t where
  stood : StandDownReported s → StandDownReported t
  counts : CountsAgree s → CountsAgree t

/-- Every invariant passes from `s` to `t`; the pool's counts with the intake's state, on which they rest. -/
structure Preserves (s t : State) : Prop extends KeepsBase s t where
  intake : IntakeLegal s → IntakeLegal t
  pool : IntakeLegal s → PoolAgrees s → PoolAgrees t

theorem KeepsBase.refl (s : State) : KeepsBase s s := ⟨.refl s, id, id⟩

theorem KeepsBase.trans {s t u : State} (h : KeepsBase s t) (k : KeepsBase t u) : KeepsBase s u :=
  ⟨h.toKeepsCore.trans k.toKeepsCore, k.stood ∘ h.stood, k.counts ∘ h.counts⟩

/-- The last operation first: its state is what the first one leaves. -/
theorem KeepsBase.comp {s t u : State} (k : KeepsBase t u) (h : KeepsBase s t) : KeepsBase s u := h.trans k

theorem KeepsBase.ite {p : Prop} [Decidable p] {s t u : State} (ht : p → KeepsBase s t) (hu : ¬p → KeepsBase s u) :
    KeepsBase s (if p then t else u) := by
  split
  · exact ht ‹_›
  · exact hu ‹_›

theorem Keeps.base {s t : State} (h : Keeps s t) : KeepsBase s t := ⟨h.toKeepsCore, h.stood, h.side.countsAgree⟩

theorem Preserves.refl (s : State) : Preserves s s := ⟨.refl s, id, fun _ => id⟩

theorem Preserves.trans {s t u : State} (h : Preserves s t) (k : Preserves t u) : Preserves s u where
  toKeepsBase := h.toKeepsBase.trans k.toKeepsBase
  intake := k.intake ∘ h.intake
  pool hi := k.pool (h.intake hi) ∘ h.pool hi

theorem Preserves.ite {p : Prop} [Decidable p] {s t u : State} (ht : p → Preserves s t) (hu : ¬p → Preserves s u) :
    Preserves s (if p then t else u) := by
  split
  · exact ht ‹_›
  · exact hu ‹_›

theorem Keeps.preserves {s t : State} (h : Keeps s t) : Preserves s t :=
  ⟨h.base, h.side.toSameReads.intakeLegal, fun _ => h.side.poolAgrees⟩

/-- The pool and the engine's state are the same. -/
def SamePool (s t : State) : Prop := t.pool = s.pool ∧ t.engine.state = s.engine.state

theorem SamePool.poolAgrees {s t : State} (h : SamePool s t) (hs : PoolAgrees s) : PoolAgrees t := by
  simpa only [PoolAgrees, occupied, h.1, h.2] using hs

/-! ## Operations that leave the orders and the array side alone -/

/-- The orders' places, the strokes, the array and what lies beside it are the same. -/
def SameWork (s t : State) : Prop :=
  t.pool.slots = s.pool.slots ∧ t.pool.queues = s.pool.queues ∧ t.table = s.table ∧ t.strokes = s.strokes ∧ t.array = s.array
    ∧ t.arrayMode = s.arrayMode ∧ t.domains = s.domains ∧ t.banks = s.banks

/-- The header's flag agrees still, and no more reporting writes wait. -/
structure KeepsReports (s t : State) : Prop where
  header : HeaderFlagAgrees s → HeaderFlagAgrees t
  writes : ∀ i, reportWrites t i ≤ reportWrites s i

theorem KeepsReports.of_channel {s t : State} (h : t.channel = s.channel) (hpending : t.reporting.headerPending = s.reporting.headerPending) :
    KeepsReports s t := ⟨fun hs => by rwa [HeaderFlagAgrees, h, hpending], fun i => Nat.le_of_eq (reportWrites_congr h i)⟩

/-- The poll timer runs only in WATCH. -/
def PollLegal (i : Intake) : Prop := i.pollTimer.isSome → i.state = .watch

/-- Fewer reporting writes wait, each still for an order in REPORTING. -/
theorem ordersPlaced_of_work {s t : State} (h : SameWork s t) (hwrites : ∀ i, reportWrites t i ≤ reportWrites s i) (hs : OrdersPlaced s) :
    OrdersPlaced t := by
  obtain ⟨hslots, hqueues, htable, -⟩ := h
  have hwrite (i : SlotId) : reportWrites t i ≤ 1 ∧ (reportWrites t i = 1 → ∃ o, slotOrder s i = some o ∧ o.life = .reporting) := by
    have hle := hwrites i
    have hone := hs.writes_le i
    exact ⟨Nat.le_trans hle hone, fun ht => hs.write_reporting (by omega)⟩
  obtain ⟨hentry, hqueue, hqueued, hheld, -⟩ := hs
  simp only [OrdersPlaced, slotOrder_congr hslots, laneEntry_congr htable, hqueues]
  exact ⟨hentry, hqueue, hqueued, hheld, hwrite⟩

/-- The orders in new places: the invariants of the places by `htable`. -/
theorem KeepsBase.of_table {s t : State} (harea : SameArea s t) (hheader : HeaderFlagAgrees s → HeaderFlagAgrees t)
    (hpoll : PollLegal s.intake → PollLegal t.intake) (hcancels : CancelListLegal s → CancelListLegal t)
    (hcounts : CountsAgree s → CountsAgree t) (htable : OrdersPlaced s → KeepsTable s t) : KeepsBase s t := by
  obtain ⟨hcells, hserving, hbanks⟩ := harea
  obtain ⟨-, harray, hmode⟩ := id hcells
  exact
    { cells := fun hs => by rwa [MemoryCanonical, harray]
      header := hheader
      cancels := hcancels
      timers := fun ⟨hp, hm⟩ => ⟨hpoll hp, by rwa [hmode]⟩
      flight := hcells.flight
      placed := fun hs => (htable hs).placed
      generators := fun hs => (htable hs).generators
      interlock := fun hs => (htable hs).interlock
      stood := standDownReported_of_rests hserving (.of_banks hbanks)
      counts := hcounts }

theorem KeepsBase.of_work {s t : State} (h : SameWork s t) (hreports : KeepsReports s t) (hpoll : PollLegal s.intake → PollLegal t.intake)
    (hcancels : CancelListLegal s → CancelListLegal t) (hcounts : CountsAgree s → CountsAgree t) : KeepsBase s t := by
  obtain ⟨hslots, hqueues, htable, hstrokes, harray, hmode, hdomains, hbanks⟩ := id h
  refine .of_table ⟨⟨by rw [hstrokes], harray, hmode⟩, by rw [hdomains], hbanks⟩ hreports.header hpoll hcancels hcounts fun hplaced => ?_
  refine ⟨ordersPlaced_of_work h hreports.writes hplaced, fun hs => ?_, fun hs => ?_⟩
  · simpa only [GeneratorsRun, laneOrder_congr hslots htable, hstrokes] using hs
  · simpa only [InterlockHolds, AtWork, slotOrder_congr hslots, laneEntry_congr htable] using hs

/-- The registers, the engine, the reporting logic's other marks and the intake change. -/
theorem KeepsBase.of_control {s t : State} (h : SameWork s t) (hchannel : t.channel = s.channel)
    (hpending : t.reporting.headerPending = s.reporting.headerPending) (hcancels : t.pool.cancelList = s.pool.cancelList)
    (hpoll : PollLegal s.intake → PollLegal t.intake) (hcounts : CountsAgree s → CountsAgree t) : KeepsBase s t :=
  .of_work h (.of_channel hchannel hpending) hpoll (fun hs => by rwa [CancelListLegal, hcancels]) hcounts

/-- An intake whose poll timer stops, or that keeps watching, with the same expected sequence. -/
theorem KeepsBase.of_intake {s : State} (i : Intake) (hexpected : i.expected = s.intake.expected) (hpoll : PollLegal s.intake → PollLegal i) :
    KeepsBase s { s with intake := i } :=
  .of_control (by simp [SameWork]) rfl rfl rfl hpoll fun hs => hexpected.trans hs

theorem KeepsBase.of_engine (e : EngineRegs) (s : State) : KeepsBase s { s with engine := e } :=
  .of_control (by simp [SameWork]) rfl rfl rfl id id

theorem KeepsBase.of_port (p : PortRegs) (s : State) : KeepsBase s { s with port := p } :=
  .of_control (by simp [SameWork]) rfl rfl rfl id id

/-! ## Requests -/

theorem KeepsBase.after_placeRequest {r : Request} (hr : r ≠ .headerUpdate ∧ ∀ i, r ≠ .result i ∧ r ≠ .estate i) (s : State) :
    KeepsBase s (placeRequest r s) := by
  refine .of_work (by simp [SameWork]) ⟨headerFlagAgrees_placeRequest hr.1, fun i => ?_⟩ (by simp [placeRequest]) (by simp [CancelListLegal])
    (by simp [CountsAgree])
  simp [reportWrites_placeRequest, hr.2 i]

theorem KeepsBase.after_requestHeaderUpdate (s : State) : KeepsBase s (requestHeaderUpdate s) := (Keeps.after_requestHeaderUpdate s).base

theorem reportWrites_freed_le (s : State) (i : SlotId) : reportWrites (freed s) i ≤ reportWrites s i := by
  cases hout : s.channel.outstanding with
  | none => simp [reportWrites, freed, hout]
  | some a => exact Nat.le.intro (reportWrites_freed hout i).symm

/-- The end of an access. -/
theorem KeepsBase.after_freed (s : State) : KeepsBase s (freed s) :=
  .of_work (by simp [SameWork, freed]) ⟨id, reportWrites_freed_le s⟩ id id id

theorem KeepsReports.after_dropIntake (s : State) :
    KeepsReports s { s with channel := { s.channel with queue := s.channel.queue.filter fun r => !r.isIntake } } :=
  ⟨fun hs => by simpa [HeaderFlagAgrees, List.count_filter, Request.isIntake] using hs,
    fun _ => Nat.add_le_add_right (List.filter_sublist.countP_le) _⟩

/-! ## The intake (chapter 2) -/

theorem KeepsBase.after_queueRead (step : ReadStep) (s : State) : KeepsBase s (queueRead step s) :=
  .comp (.after_placeRequest (r := .intakeRead step) (by simp) _) (.of_intake _ rfl (by simp [PollLegal]))

theorem KeepsBase.after_enterWatch (s : State) : KeepsBase s (enterWatch s) := by
  have hwatch : KeepsBase s (requestHeaderUpdate
      { s with intake := { s.intake with state := .watch, readStep := none, pollTimer := pollIntervalUs s.port.poll } }) :=
    .comp (.after_requestHeaderUpdate _) (.of_intake _ rfl (by simp [PollLegal]))
  exact .ite (fun _ => hwatch.trans (.after_queueRead .tally _)) fun _ => hwatch

theorem KeepsBase.after_enterStall (st : IntakeState) (s : State) : KeepsBase s (enterStall st s) :=
  .comp (.after_requestHeaderUpdate _) (.of_intake _ rfl (by simp [PollLegal]))

theorem KeepsBase.after_breakIntake (reason : IntakeFault) (step : ReadStep) (s : State) : KeepsBase s (breakIntake reason step s) :=
  .comp (.after_requestHeaderUpdate _) (.comp (.of_port _ _) (.of_intake _ rfl (by simp [PollLegal])))

theorem KeepsBase.after_goToPage (s : State) : KeepsBase s (goToPage s) :=
  .ite (fun _ => .after_queueRead .next s) fun _ => .comp (.after_queueRead .header _) (.of_intake _ rfl (by exact id))

theorem KeepsBase.after_poolCheck (s : State) : KeepsBase s (poolCheck s) :=
  .ite (fun _ => .after_queueRead .entry s) fun _ => .after_enterStall .stalledPool s

theorem KeepsBase.after_newPageStep (s : State) : KeepsBase s (newPageStep s) :=
  .ite (fun _ => .after_enterStall .stalledPages s) fun _ => .after_goToPage s

theorem KeepsBase.after_beginTake (s : State) : KeepsBase s (beginTake s) :=
  .ite (fun _ => .after_newPageStep s) fun _ => .after_poolCheck s

theorem KeepsBase.after_afterTake (s : State) : KeepsBase s (afterTake s) :=
  .ite (fun _ => .after_queueRead .tally s) fun _ => .after_beginTake s

theorem KeepsBase.after_intakeOff (s : State) : KeepsBase s (intakeOff s) := .of_intake _ rfl (by simp [PollLegal])

theorem KeepsBase.after_stopIntake (s : State) : KeepsBase s (stopIntake s) :=
  .ite (fun _ => .of_intake _ rfl (by simp [PollLegal])) fun _ =>
    .comp (.after_intakeOff _) (.of_work (by simp [SameWork]) (.after_dropIntake s) id id id)

theorem KeepsBase.after_endAbandonedRead (s : State) : KeepsBase s (endAbandonedRead s) :=
  have hended : KeepsBase s { s with intake := { s.intake with readAbandoned := false } } := .of_intake _ rfl (by exact id)
  .ite (fun _ => hended.trans (.after_enterWatch _)) fun _ => hended.trans (.after_intakeOff _)

theorem KeepsBase.after_intakeResult {f : State → State} {s : State} (hf : KeepsBase s (f s)) : KeepsBase s (intakeResult f s) :=
  .ite (fun _ => .after_endAbandonedRead s) fun _ => hf

theorem KeepsBase.after_setTarget (p : Word) (s : State) : KeepsBase s (setTarget p s) := .of_intake _ rfl (by exact id)

theorem KeepsBase.after_tallyDone (p : Word) (s : State) : KeepsBase s (tallyDone p s) :=
  .ite (fun _ => (KeepsBase.after_setTarget p s).trans (.after_enterWatch _)) fun _ =>
    .ite (fun _ => (KeepsBase.after_setTarget p s).trans (.after_beginTake _)) fun _ => .after_breakIntake .tally .tally s

theorem KeepsBase.after_nextDone (n : Word) (s : State) : KeepsBase s (nextDone n s) :=
  .ite (fun _ => .after_breakIntake .noNext .next s) fun _ =>
    .ite (fun _ => .after_breakIntake .pageMismatch .next s) fun _ =>
      .comp (.after_queueRead .header _) (.of_intake _ rfl (by exact id))

/-- The release write of the oldest record joins the queue (R19). -/
theorem Keeps.after_releaseTest (s : State) : Keeps s (releaseTest s) := by
  refine .ite (fun _ => .trans (t := { s with reporting := { s.reporting with releaseInProgress := true } }) ?_ ?_) fun _ => .refl s
  · exact .of_same (by simp [SameControl, SameOrderSide]) (by simp [SameCells]) (by simp)
  · refine .of_queue (sameIntakeSide_placeRequest rfl _) (headerFlagAgrees_placeRequest (by simp)) (fun i => ?_) (by simp) (by simp)
    simp [reportWrites_placeRequest]

theorem KeepsBase.after_leavePage (s : State) : KeepsBase s (leavePage s) :=
  .ite (fun _ => .comp (Keeps.after_releaseTest _).base (.of_intake _ rfl (by exact id))) fun _ => .refl s

theorem KeepsBase.after_enterPage (s : State) : KeepsBase s (enterPage s) := .of_intake _ rfl (by exact id)

theorem KeepsBase.after_firstSeqDone (f : Word) (s : State) : KeepsBase s (firstSeqDone f s) :=
  .ite (fun _ => ((KeepsBase.after_leavePage s).trans (.after_enterPage _)).trans (.after_poolCheck _)) fun _ => .after_breakIntake _ _ s

theorem KeepsBase.after_stalledPoolTest (s : State) : KeepsBase s (stalledPoolTest s) :=
  .ite (fun _ => .after_queueRead .entry s) fun _ => .refl s

theorem KeepsBase.after_stalledPagesTest (s : State) : KeepsBase s (stalledPagesTest s) := .ite (fun _ => .after_goToPage s) fun _ => .refl s

theorem KeepsBase.after_setNudge (s : State) : KeepsBase s (setNudge s) := .of_intake _ rfl (by exact id)

theorem KeepsBase.after_retryIntake (s : State) : KeepsBase s (retryIntake s) := by
  unfold retryIntake
  split
  · exact .comp (.after_queueRead _ _) (.of_intake _ rfl (by exact id))
  · exact .refl s

theorem KeepsBase.after_nudgeIntake (s : State) : KeepsBase s (nudgeIntake s) := by
  unfold nudgeIntake
  cases s.intake.state with
  | watch => exact .after_queueRead .tally s
  | reading | stalledPool | stalledPages => exact .after_setNudge s
  | broken => exact .after_retryIntake s
  | off => exact .refl s

theorem KeepsBase.after_pollChanged (before : BitVec 2) (s : State) : KeepsBase s (pollChanged before s) :=
  .ite (fun hwatch => .of_intake _ rfl fun _ _ => hwatch.2) fun _ => .refl s

/-! ## The engine (section 10.5) -/

theorem KeepsBase.after_reachDisabled (s : State) : KeepsBase s (reachDisabled s) :=
  .of_work (by simp [SameWork, reachDisabled]) (.of_channel rfl rfl) id (fun _ => by simp [CancelListLegal, reachDisabled]) id

theorem KeepsBase.after_drainedTest (s : State) : KeepsBase s (drainedTest s) := .ite (fun _ => .after_reachDisabled s) fun _ => .refl s

theorem KeepsBase.after_enterHalted (reason : HaltReason) (s : State) : KeepsBase s (enterHalted reason s) :=
  .comp (.of_port _ _) (.of_engine _ s)

theorem KeepsBase.after_disableEngine (s : State) : KeepsBase s (disableEngine s) :=
  .comp (.after_drainedTest _) (.comp (.after_stopIntake _) (.of_engine _ s))

theorem KeepsBase.after_resumeEngine (s : State) : KeepsBase s (resumeEngine s) :=
  have hrunning : KeepsBase s { s with engine := { s.engine with state := .running } } := .of_engine _ s
  .ite (fun _ => hrunning) fun _ => hrunning.trans (.after_enterWatch _)

theorem KeepsBase.after_startEngine (s : State) : KeepsBase s (startEngine s) :=
  .comp (.after_placeRequest (r := .startRead) (by simp) _) (.of_engine _ s)

theorem KeepsBase.after_enableChanged (on : Bool) (s : State) : KeepsBase s (enableChanged on s) := by
  unfold enableChanged
  split
  · exact .after_startEngine s
  · exact .after_resumeEngine s
  · exact .after_disableEngine s
  all_goals exact .refl s

/-- RUNNING with the counts at 0 and the intake initialised, before it watches (R190, R9, R25). -/
def beginCounts (page : Word) (s : State) : State :=
  { s with
    engine := { s.engine with state := .running }
    pool := { s.pool with taken := 0, finished := 0, oldestOpen := 0 }
    reporting := { s.reporting with released := 0 }
    intake := startIntake page s.intake }

theorem beginRun_eq (page : Word) (s : State) : beginRun page s = enterWatch (requestHeaderUpdate (beginCounts page s)) := rfl

theorem KeepsBase.after_beginRun (page : Word) (s : State) : KeepsBase s (beginRun page s) := by
  have hcounts : KeepsBase s (beginCounts page s) :=
    .of_control (by simp [SameWork, beginCounts]) rfl rfl rfl (by exact id) fun _ => rfl
  exact (hcounts.trans (.after_requestHeaderUpdate _)).trans (.after_enterWatch _)

theorem KeepsBase.after_startReadDone (page : Word) (s : State) : KeepsBase s (startReadDone page s) :=
  .ite (fun _ => .after_enterHalted .start s) fun _ =>
    .ite (fun _ => .after_beginRun page s) fun _ => (KeepsBase.after_beginRun page s).trans (.after_disableEngine _)

theorem haltOnReport_keeps (s : State) : Keeps (stopIntake (enterHalted .reportBus s)) (haltOnReport s) :=
  .foldl (fun t l => .after_haltLane l t) _ _

theorem KeepsBase.after_haltOnReport (s : State) : KeepsBase s (haltOnReport s) :=
  ((KeepsBase.after_enterHalted _ s).trans (.after_stopIntake _)).trans (haltOnReport_keeps s).base

theorem KeepsBase.after_accessFails (r : Request) (s : State) : KeepsBase s (accessFails r s) := by
  cases r with
  | startRead => exact .after_enterHalted .start s
  | intakeRead step => exact (KeepsBase.after_intakeResult (.after_breakIntake .bus step s)).trans (.after_drainedTest _)
  | result _ | estate _ | headerUpdate | release => exact .after_haltOnReport s
  | hostRead i | hostWrite i => exact (Keeps.after_dataFails i s).base

/-- The oldest record is released (R20). -/
theorem KeepsBase.after_dropOldest (s : State) : KeepsBase s (dropOldest s) :=
  .of_control (by simp [SameWork, dropOldest]) rfl rfl rfl (by exact id) (by exact id)

theorem KeepsBase.after_releaseDone (s : State) : KeepsBase s (releaseDone s) :=
  ((((KeepsBase.after_dropOldest s).trans (.after_requestHeaderUpdate _)).trans (Keeps.after_releaseTest _).base).trans
    (.after_stalledPagesTest _)).trans (.after_drainedTest _)

theorem KeepsBase.after_headerDone (a : Access) (s : State) : KeepsBase s (headerDone a s) := by
  have hnotify : KeepsBase s (if a.carriesNotify then setNotify s else s) := .ite (fun _ => .of_port _ s) fun _ => .refl s
  exact hnotify.trans (.after_drainedTest _)

end Sys2Proof.Safety
end

section
/-! PROOFS. The intake's own invariant (R23, R26, R34, R41, R46, R185): one INTAKE request, and the states that go with it. -/

namespace Sys2Proof.Safety

open Sys2Proof.Machine

/-! ## INTAKE requests -/

theorem intakeRequests_eq_zero_iff (s : State) : intakeRequests s = 0 ↔ ∀ r, r.isIntake = true → ¬Requested s r := by
  constructor
  · intro h r hr hreq
    obtain ⟨hqueue, hout⟩ : s.channel.queue.countP Request.isIntake = 0 ∧ intakeOutstanding s = false := by
      simpa [intakeRequests] using h
    rcases hreq with hmem | ⟨a, ha, rfl⟩
    · exact List.countP_eq_zero.mp hqueue r hmem hr
    · simp [intakeOutstanding, ha, hr] at hout
  · intro h
    have hqueue : s.channel.queue.countP Request.isIntake = 0 := List.countP_eq_zero.mpr fun r hmem hr => h r hr (.inl hmem)
    have hout : intakeOutstanding s = false := by
      cases ha : s.channel.outstanding with
      | none => simp [intakeOutstanding, ha]
      | some a =>
        have hr : ¬a.request.isIntake = true := fun hr => h _ hr (.inr ⟨a, ha, rfl⟩)
        simpa [intakeOutstanding, ha] using hr
    simp [intakeRequests, hqueue, hout]

/-- An INTAKE request is the start read or the read of a step. -/
theorem isIntake_cases {r : Request} (h : r.isIntake = true) : r = .startRead ∨ ∃ step, r = .intakeRead step := by
  cases r <;> simp_all [Request.isIntake]

theorem requested_placeRequest (r x : Request) (s : State) : Requested (placeRequest r s) x ↔ Requested s x ∨ x = r := by
  simp only [Requested, placeRequest, List.mem_append, List.mem_singleton]
  exact or_right_comm

theorem intakeRequests_placeRequest {r : Request} (hr : r.isIntake = true) (s : State) :
    intakeRequests (placeRequest r s) = intakeRequests s + 1 := by
  have hqueue : (placeRequest r s).channel.queue.countP Request.isIntake = s.channel.queue.countP Request.isIntake + 1 := by
    simp [placeRequest, hr]
  have hout : intakeOutstanding (placeRequest r s) = intakeOutstanding s := rfl
  rw [intakeRequests, intakeRequests, hqueue, hout]
  omega

/-- The end of an access leaves the requests that wait. -/
theorem Requested.of_freed {s : State} {r : Request} (h : Requested (freed s) r) : Requested s r := by
  rcases h with hmem | ⟨a, ha, -⟩
  · exact .inl hmem
  · exact nomatch ha

theorem intakeRequests_freed {s : State} {a : Access} (hout : s.channel.outstanding = some a) (ha : a.request.isIntake = true) :
    intakeRequests s = intakeRequests (freed s) + 1 := by
  simp [intakeRequests, intakeOutstanding, hout, ha, freed]

/-! ## What the invariant needs -/

/-- The read of this step can bring a page record, or retry one, and there is room for it (R34, R46). -/
def HasRoom (step : ReadStep) (s : State) : Prop := step = .next ∨ step = .header → s.intake.records.length ≤ 3

/-- RUNNING with no INTAKE request: where the intake's next step starts. -/
structure Ready (s : State) : Prop where
  requests : intakeRequests s = 0
  running : s.engine.state = .running
  records : s.intake.records.length ≤ 4

theorem SameReads.ready {s t : State} (h : SameReads s t) (hs : Ready s) : Ready t := by
  have hintake := h.intake
  simp only [intakeView, Prod.mk.injEq] at hintake
  obtain ⟨-, -, -, hrecords, -⟩ := hintake
  exact ⟨h.requests.trans hs.requests, by rw [h.engine, hs.running], Nat.le_trans (Nat.le_of_eq hrecords) hs.records⟩

/-- With no INTAKE request the invariant speaks of the states alone. -/
theorem intakeLegal_of_idle {s : State} (hrequests : intakeRequests s = 0) (hoff : s.intake.state ≠ .off → engineLive s = true)
    (hdrain : s.engine.state = .draining → s.intake.state = .off) (hrecords : s.intake.records.length ≤ 4)
    (hbroken : s.intake.state = .broken → s.intake.failedStep = some .next ∨ s.intake.failedStep = some .header →
      s.intake.records.length ≤ 3) : IntakeLegal s := by
  have hnone := (intakeRequests_eq_zero_iff s).mp hrequests
  refine ⟨by omega, fun h => absurd h (hnone _ rfl), fun _ h => absurd h (hnone _ rfl), hoff, fun h => .inl (hdrain h), hrecords, ?_, hbroken⟩
  rintro (h | h) <;> exact absurd h (hnone _ rfl)

theorem engineLive_of_running {s : State} (h : s.engine.state = .running) : engineLive s = true := by simp [engineLive, engineIs, h]

theorem engineLive_iff (s : State) : engineLive s = true ↔ s.engine.state = .running ∨ s.engine.state = .draining := by
  simp [engineLive, engineIs]

theorem Ready.legal {s : State} (h : Ready s) (hbroken : s.intake.state = .broken → ∀ step, s.intake.failedStep = some step → HasRoom step s) :
    IntakeLegal s := by
  refine intakeLegal_of_idle h.requests (fun _ => engineLive_of_running h.running) (by simp [h.running]) h.records fun hstate hstep => ?_
  rcases hstep with hstep | hstep
  · exact hbroken hstate _ hstep (.inl rfl)
  · exact hbroken hstate _ hstep (.inr rfl)

/-- In a state where no read is under way, the intake is OFF or ready. -/
theorem IntakeLegal.ready {s : State} (h : IntakeLegal s) (hoff : s.intake.state ≠ .off) (hread : s.intake.state ≠ .reading) : Ready s := by
  obtain ⟨-, hstart, hreads, hlive, hdrain, hrecords, -⟩ := h
  have hengine := (engineLive_iff s).mp (hlive hoff)
  have hnone : intakeRequests s = 0 := by
    refine (intakeRequests_eq_zero_iff s).mpr fun r hr hreq => ?_
    rcases isIntake_cases hr with rfl | ⟨step, rfl⟩
    · simp [hstart hreq] at hengine
    · exact hread (hreads step hreq)
  refine ⟨hnone, hengine.resolve_right fun hdraining => ?_, hrecords⟩
  rcases hdrain hdraining with hstate | ⟨hout, -⟩
  · exact hoff hstate
  · simp [intakeRequests, hout] at hnone

/-! ## The intake's steps -/

theorem Ready.after_intake {s : State} (h : Ready s) (i : Intake) (hrecords : i.records.length ≤ 4) : Ready { s with intake := i } :=
  ⟨h.requests, h.running, hrecords⟩

theorem IntakeLegal.of_ready_queueRead {s : State} (h : Ready s) {step : ReadStep} (hroom : HasRoom step s) : IntakeLegal (queueRead step s) := by
  have hrequests : intakeRequests (queueRead step s) = 1 := (intakeRequests_placeRequest rfl _).trans (congrArg (· + 1) h.requests)
  have hnone := (intakeRequests_eq_zero_iff s).mp h.requests
  have honly (r : Request) (hr : r.isIntake = true) (hreq : Requested (queueRead step s) r) : r = .intakeRead step :=
    ((requested_placeRequest _ _ _).mp hreq).resolve_left (hnone r hr)
  refine ⟨Nat.le_of_eq hrequests, fun hreq => (nomatch honly _ rfl hreq), fun _ _ => rfl, fun _ => engineLive_of_running h.running, fun hdrain => ?_, h.records,
    fun hreq => ?_, fun hstate => (nomatch hstate)⟩
  · exact absurd (hdrain.symm.trans h.running) (by simp)
  · rcases hreq with hreq | hreq
    · cases honly _ rfl hreq
      exact hroom (.inl rfl)
    · cases honly _ rfl hreq
      exact hroom (.inr rfl)

theorem SameReads.of_requestHeaderUpdate (s : State) : SameReads s (requestHeaderUpdate s) :=
  (Keeps.after_requestHeaderUpdate s).side.toSameReads

theorem Ready.after_requestHeaderUpdate {s : State} (h : Ready s) : Ready (requestHeaderUpdate s) := (SameReads.of_requestHeaderUpdate s).ready h

theorem hasRoom_of_step {step : ReadStep} (h : step = .tally ∨ step = .entry) (s : State) : HasRoom step s := by
  rcases h with rfl | rfl <;> rintro (h | h) <;> cases h

theorem IntakeLegal.after_enterWatch {s : State} (h : Ready s) : IntakeLegal (enterWatch s) := by
  have hwatch : Ready (requestHeaderUpdate
      { s with intake := { s.intake with state := .watch, readStep := none, pollTimer := pollIntervalUs s.port.poll } }) :=
    .after_requestHeaderUpdate (h.after_intake _ (by exact h.records))
  unfold enterWatch
  dsimp only
  split
  · exact .of_ready_queueRead hwatch (hasRoom_of_step (.inl rfl) _)
  · exact hwatch.legal (by simp)

theorem IntakeLegal.after_enterStall {s : State} (h : Ready s) {st : IntakeState} (hst : st ≠ .broken) : IntakeLegal (enterStall st s) := by
  have hstall : Ready (enterStall st s) := .after_requestHeaderUpdate (h.after_intake _ (by exact h.records))
  exact hstall.legal fun hstate => absurd (by simpa [enterStall] using hstate) hst

theorem IntakeLegal.after_breakIntake {s : State} (h : Ready s) (reason : IntakeFault) {step : ReadStep} (hroom : HasRoom step s) :
    IntakeLegal (breakIntake reason step s) := by
  have hready : Ready (breakIntake reason step s) :=
    .after_requestHeaderUpdate ⟨h.requests, h.running, h.records⟩
  refine hready.legal fun _ x hx => ?_
  have hstep : step = x := by simpa [breakIntake] using hx
  subst hstep
  simpa [HasRoom] using hroom

theorem IntakeLegal.after_goToPage {s : State} (h : Ready s) (hroom : s.intake.records.length ≤ 3) : IntakeLegal (goToPage s) := by
  unfold goToPage
  split
  · exact .of_ready_queueRead h fun _ => hroom
  · exact .of_ready_queueRead (h.after_intake _ (by exact h.records)) fun _ => hroom

theorem IntakeLegal.after_poolCheck {s : State} (h : Ready s) : IntakeLegal (poolCheck s) := by
  unfold poolCheck
  split
  · exact .of_ready_queueRead h (hasRoom_of_step (.inr rfl) s)
  · exact .after_enterStall h (by simp)

theorem IntakeLegal.after_newPageStep {s : State} (h : Ready s) : IntakeLegal (newPageStep s) := by
  unfold newPageStep
  split
  · exact .after_enterStall h (by simp)
  · rename_i hroom
    exact .after_goToPage h (by simp only [Config.maxRecords] at hroom; omega)

theorem IntakeLegal.after_beginTake {s : State} (h : Ready s) : IntakeLegal (beginTake s) := by
  unfold beginTake
  split
  · exact .after_newPageStep h
  · exact .after_poolCheck h

theorem IntakeLegal.after_afterTake {s : State} (h : Ready s) : IntakeLegal (afterTake s) := by
  unfold afterTake
  split
  · exact .of_ready_queueRead h (hasRoom_of_step (.inl rfl) s)
  · exact .after_beginTake h

theorem IntakeLegal.after_tallyDone {s : State} (h : Ready s) (p : Word) : IntakeLegal (tallyDone p s) := by
  have htarget : Ready (setTarget p s) := h.after_intake _ (by exact h.records)
  unfold tallyDone
  dsimp only
  split
  · exact .after_enterWatch htarget
  · split
    · exact .after_beginTake htarget
    · exact .after_breakIntake h _ (hasRoom_of_step (.inl rfl) s)

theorem IntakeLegal.after_nextDone {s : State} (h : Ready s) (hroom : s.intake.records.length ≤ 3) (n : Word) : IntakeLegal (nextDone n s) := by
  unfold nextDone
  split
  · exact .after_breakIntake h _ fun _ => hroom
  · split
    · exact .after_breakIntake h _ fun _ => hroom
    · exact .of_ready_queueRead (h.after_intake _ (by exact h.records)) fun _ => hroom

theorem updateYoungest_length (f : PageRecord → PageRecord) (l : List PageRecord) : (updateYoungest f l).length = l.length := by
  induction l with
  | nil => rfl
  | cons p rest ih =>
    cases rest with
    | nil => rfl
    | cons q rest => simpa [updateYoungest] using ih

theorem leavePage_records_length (s : State) : (leavePage s).intake.records.length = s.intake.records.length := by
  unfold leavePage
  split
  · simp [updateYoungest_length]
  · rfl

theorem Ready.after_leavePage {s : State} (h : Ready s) : Ready (leavePage s) := by
  unfold leavePage
  split
  · exact (Keeps.after_releaseTest _).side.toSameReads.ready (h.after_intake _ (by rw [updateYoungest_length]; exact h.records))
  · exact h

theorem IntakeLegal.after_firstSeqDone {s : State} (h : Ready s) (hroom : s.intake.records.length ≤ 3) (f : Word) :
    IntakeLegal (firstSeqDone f s) := by
  unfold firstSeqDone
  split
  · refine .after_poolCheck (h.after_leavePage.after_intake _ ?_)
    simp only [List.length_append, List.length_singleton, leavePage_records_length]
    omega
  · exact .after_breakIntake h _ fun _ => hroom

/-! ## Reads under way -/

/-- The read that the intake awaits ends: no INTAKE request is left, the engine is RUNNING unless the read was abandoned, and a read that can bring a record has room. -/
theorem IntakeLegal.read_ends {s : State} (h : IntakeLegal s) {a : Access} {step : ReadStep} (hout : s.channel.outstanding = some a)
    (ha : a.request = .intakeRead step) :
    intakeRequests (freed s) = 0 ∧ engineLive s = true ∧ (s.intake.readAbandoned = false → Ready (freed s)) ∧ HasRoom step s := by
  obtain ⟨hcount, -, hreads, hlive, hdrain, hrecords, hroom, -⟩ := h
  have hreq : Requested s (.intakeRead step) := .inr ⟨a, hout, ha⟩
  have hreading : s.intake.state = .reading := hreads step hreq
  have hengine : engineLive s = true := hlive (by simp [hreading])
  have hnone : intakeRequests (freed s) = 0 := by
    have hone := intakeRequests_freed hout (by rw [ha]; rfl)
    omega
  refine ⟨hnone, hengine, fun habandoned => ⟨hnone, ?_, hrecords⟩, fun hstep => hroom ?_⟩
  · refine ((engineLive_iff s).mp hengine).resolve_right fun hdraining => ?_
    simpa [hreading, habandoned] using hdrain hdraining
  · rcases hstep with rfl | rfl
    · exact .inl hreq
    · exact .inr hreq

theorem IntakeLegal.after_intakeOff {s : State} (hrequests : intakeRequests s = 0) (hrecords : s.intake.records.length ≤ 4) :
    IntakeLegal (intakeOff s) :=
  intakeLegal_of_idle hrequests (by simp [intakeOff]) (by simp [intakeOff]) hrecords (by simp [intakeOff])

theorem IntakeLegal.after_intakeResult {s : State} (h : IntakeLegal s) {a : Access} {step : ReadStep} (hout : s.channel.outstanding = some a)
    (ha : a.request = .intakeRead step) {f : State → State} (hf : Ready (freed s) → HasRoom step s → IntakeLegal (f (freed s))) :
    IntakeLegal (intakeResult f (freed s)) := by
  obtain ⟨hrequests, -, hready, hroom⟩ := h.read_ends hout ha
  obtain ⟨-, -, -, -, -, hrecords, -⟩ := h
  unfold intakeResult
  split
  · unfold endAbandonedRead
    dsimp only
    split
    · rename_i hrunning
      exact .after_enterWatch ⟨hrequests, by simpa [engineIs] using hrunning, hrecords⟩
    · exact .after_intakeOff hrequests hrecords
  · exact hf (hready (by simp_all [freed])) hroom

/-- A drain ends with the intake OFF and no request. -/
theorem IntakeLegal.after_drainedTest {s : State} (h : IntakeLegal s) : IntakeLegal (drainedTest s) := by
  unfold drainedTest
  split
  · rename_i hdrained
    obtain ⟨-, hstart, hreads, -, hdrain, -⟩ := h
    obtain ⟨hdraining, hnone⟩ : s.engine.state = .draining ∧ intakeOutstanding s = false := by
      simp_all [drained, engineIs]
    have hoff : s.intake.state = .off := (hdrain hdraining).resolve_right (by simp [hnone])
    have hrequests : intakeRequests s = 0 := by
      refine (intakeRequests_eq_zero_iff s).mpr fun r hr hreq => ?_
      rcases isIntake_cases hr with rfl | ⟨step, rfl⟩
      · simpa [hdraining] using hstart hreq
      · simpa [hoff] using hreads step hreq
    exact intakeLegal_of_idle hrequests (by simp [reachDisabled, setDrained, hoff]) (by simp) (by simp [reachDisabled, setDrained])
      (by simp [reachDisabled, setDrained])
  · exact h

/-- An access of another class ends beside the intake. -/
theorem SameReads.of_freed {s : State} {a : Access} (hout : s.channel.outstanding = some a) (ha : a.request.isIntake = false) :
    SameReads s (freed s) :=
  ⟨rfl, rfl, by simp [hout, freed, Option.filter, ha], rfl⟩

/-! ## The engine -/

theorem intakeRequests_dropIntake {s : State} (h : intakeOutstanding s = false) :
    intakeRequests { s with channel := { s.channel with queue := s.channel.queue.filter fun r => !r.isIntake } } = 0 := by
  have hqueue : (s.channel.queue.filter fun r => !r.isIntake).countP Request.isIntake = 0 := by
    simp [List.countP_eq_zero]
  have hout : intakeOutstanding { s with channel := { s.channel with queue := s.channel.queue.filter fun r => !r.isIntake } } = false := h
  rw [intakeRequests, hout]
  exact hqueue

/-- Without a read outstanding the intake goes to OFF, its requests gone. -/
theorem IntakeLegal.after_stopIntake {s : State} (h : intakeOutstanding s = false) (hrecords : s.intake.records.length ≤ 4) :
    IntakeLegal (stopIntake s) := by
  rw [stopIntake, h]
  exact .after_intakeOff (intakeRequests_dropIntake h) hrecords

theorem IntakeLegal.after_disableEngine {s : State} (h : IntakeLegal s) (hrunning : s.engine.state = .running) :
    IntakeLegal (disableEngine s) := by
  refine .after_drainedTest ?_
  cases hout : intakeOutstanding s with
  | false => exact .after_stopIntake hout h.2.2.2.2.2.1
  | true =>
    obtain ⟨hcount, hstart, hreads, hlive, -, hrecords, hroom, hbroken⟩ := h
    have hstop : stopIntake { s with engine := { s.engine with state := .draining } } =
        { s with
          engine := { s.engine with state := .draining }
          intake := { s.intake with pollTimer := none, nudgePending := false, readAbandoned := true } } := if_pos hout
    rw [hstop]
    exact ⟨hcount, fun hreq => absurd (hrunning.symm.trans (hstart hreq)) (by simp), hreads, fun _ => rfl, fun _ => .inr ⟨hout, rfl⟩, hrecords,
      hroom, hbroken⟩

theorem IntakeLegal.after_resumeEngine {s : State} (h : IntakeLegal s) (hdraining : s.engine.state = .draining) :
    IntakeLegal (resumeEngine s) := by
  obtain ⟨hcount, hstart, hreads, hlive, hdrain, hrecords, hroom, hbroken⟩ := h
  have hnostart : ¬Requested s .startRead := fun hreq => by simpa [hdraining] using hstart hreq
  unfold resumeEngine
  dsimp only
  split
  · exact ⟨hcount, fun hreq => absurd hreq hnostart, hreads, fun _ => rfl, fun hengine => (nomatch hengine), hrecords, hroom, hbroken⟩
  · rename_i habandoned
    have hoff : s.intake.state = .off := (hdrain hdraining).resolve_right fun ⟨_, ha⟩ => habandoned ha
    have hrequests : intakeRequests s = 0 := by
      refine (intakeRequests_eq_zero_iff s).mpr fun r hr hreq => ?_
      rcases isIntake_cases hr with rfl | ⟨step, rfl⟩
      · exact hnostart hreq
      · simpa [hoff] using hreads step hreq
    exact .after_enterWatch ⟨hrequests, rfl, hrecords⟩

/-- While the engine does not run orders the intake is OFF and reads nothing. -/
theorem IntakeLegal.at_rest {s : State} (h : IntakeLegal s) (hdead : engineLive s = false) :
    s.intake.state = .off ∧ ∀ step, ¬Requested s (.intakeRead step) := by
  obtain ⟨-, -, hreads, hlive, -⟩ := h
  have hoff : s.intake.state = .off := by
    refine Decidable.byContradiction fun hne => ?_
    exact absurd ((hlive hne).symm.trans hdead) (by decide)
  exact ⟨hoff, fun step hreq => by simpa [hoff] using hreads step hreq⟩

theorem IntakeLegal.after_startEngine {s : State} (h : IntakeLegal s) (hdisabled : s.engine.state = .disabled) : IntakeLegal (startEngine s) := by
  obtain ⟨hoff, hreads⟩ := h.at_rest (by simp [engineLive, engineIs, hdisabled])
  obtain ⟨-, hstart, -, -, -, hrecords, -⟩ := h
  have hrequests : intakeRequests s = 0 := by
    refine (intakeRequests_eq_zero_iff s).mpr fun r hr hreq => ?_
    rcases isIntake_cases hr with rfl | ⟨step, rfl⟩
    · simpa [hdisabled] using hstart hreq
    · exact hreads step hreq
  have hone : intakeRequests (startEngine s) = 1 := (intakeRequests_placeRequest rfl _).trans (congrArg (· + 1) hrequests)
  have hnone (step : ReadStep) : ¬Requested (startEngine s) (.intakeRead step) := fun hreq => by
    rcases (requested_placeRequest _ _ _).mp hreq with hold | hnew
    · exact hreads step hold
    · exact nomatch hnew
  refine ⟨Nat.le_of_eq hone, fun _ => rfl, fun step hreq => absurd hreq (hnone step), fun hne => absurd hoff hne, fun hengine => (nomatch hengine), hrecords,
    fun hreq => ?_, fun hstate => ?_⟩
  · rcases hreq with hreq | hreq <;> exact absurd hreq (hnone _)
  · exact absurd (hoff.symm.trans hstate) (by simp)

theorem IntakeLegal.after_enableChanged {s : State} (h : IntakeLegal s) (on : Bool) : IntakeLegal (enableChanged on s) := by
  unfold enableChanged
  split
  · exact h.after_startEngine ‹_›
  · exact h.after_resumeEngine ‹_›
  · exact h.after_disableEngine ‹_›
  all_goals exact h

/-- The start read ends: no INTAKE request is left and the intake is OFF (R189). -/
theorem IntakeLegal.start_ends {s : State} (h : IntakeLegal s) {a : Access} (hout : s.channel.outstanding = some a) (ha : a.request = .startRead) :
    s.engine.state = .starting ∧ intakeRequests (freed s) = 0 ∧ s.intake.state = .off := by
  have hstarting : s.engine.state = .starting := h.2.1 (.inr ⟨a, hout, ha⟩)
  obtain ⟨hoff, -⟩ := h.at_rest (by simp [engineLive, engineIs, hstarting])
  have hone := intakeRequests_freed hout (by rw [ha]; rfl)
  have hcount := h.1
  exact ⟨hstarting, by omega, hoff⟩

/-- The engine halts with the intake OFF. -/
theorem IntakeLegal.after_enterHalted {s : State} (hrequests : intakeRequests s = 0) (hoff : s.intake.state = .off)
    (hrecords : s.intake.records.length ≤ 4) (reason : HaltReason) : IntakeLegal (enterHalted reason s) :=
  intakeLegal_of_idle hrequests (fun hne => absurd hoff hne) (by simp) hrecords fun hstate => absurd (hoff.symm.trans hstate) (by simp)

theorem Ready.after_beginCounts {s : State} (hrequests : intakeRequests s = 0) (page : Word) : Ready (beginCounts page s) :=
  ⟨hrequests, rfl, Nat.zero_le 4⟩

theorem IntakeLegal.after_startReadDone {s : State} (hrequests : intakeRequests s = 0) (hoff : s.intake.state = .off)
    (hrecords : s.intake.records.length ≤ 4) (page : Word) : IntakeLegal (startReadDone page s) := by
  have hrun : IntakeLegal (beginRun page s) := .after_enterWatch (Ready.after_beginCounts hrequests page).after_requestHeaderUpdate
  unfold startReadDone
  split
  · exact .after_enterHalted hrequests hoff hrecords .start
  · split
    · exact hrun
    · exact hrun.after_disableEngine (by simp [beginRun_eq, beginCounts])

/-- A failed report halts the engine: no read was outstanding, so the intake goes to OFF (R193). -/
theorem IntakeLegal.after_haltOnReport {s : State} (h : intakeOutstanding s = false) (hrecords : s.intake.records.length ≤ 4) :
    IntakeLegal (haltOnReport s) :=
  (haltOnReport_keeps s).side.toSameReads.intakeLegal (.after_stopIntake h hrecords)

/-! ## Waits and retries -/

theorem IntakeLegal.after_stalledPoolTest {s : State} (h : IntakeLegal s) : IntakeLegal (stalledPoolTest s) := by
  unfold stalledPoolTest
  split
  · rename_i hstall
    exact .of_ready_queueRead (h.ready (by simp [hstall.1]) (by simp [hstall.1])) (hasRoom_of_step (.inr rfl) s)
  · exact h

theorem IntakeLegal.after_stalledPagesTest {s : State} (h : IntakeLegal s) : IntakeLegal (stalledPagesTest s) := by
  unfold stalledPagesTest
  split
  · rename_i hstall
    exact .after_goToPage (h.ready (by simp [hstall.1]) (by simp [hstall.1])) (by have := hstall.2; simp only [Config.maxRecords] at this; omega)
  · exact h

theorem IntakeLegal.after_watch_tally {s : State} (h : IntakeLegal s) (hwatch : s.intake.state = .watch) : IntakeLegal (queueRead .tally s) :=
  .of_ready_queueRead (h.ready (by simp [hwatch]) (by simp [hwatch])) (hasRoom_of_step (.inl rfl) s)

theorem IntakeLegal.after_retryIntake {s : State} (h : IntakeLegal s) (hbroken : s.intake.state = .broken) : IntakeLegal (retryIntake s) := by
  have hready := h.ready (by simp [hbroken]) (by simp [hbroken])
  obtain ⟨-, -, -, -, -, -, -, hroom⟩ := id h
  unfold retryIntake
  split
  · rename_i step hstep
    refine .of_ready_queueRead (hready.after_intake _ (by exact hready.records)) fun hnew => hroom hbroken ?_
    rcases hnew with rfl | rfl
    · exact .inl hstep
    · exact .inr hstep
  · exact h

theorem IntakeLegal.after_nudgeIntake {s : State} (h : IntakeLegal s) : IntakeLegal (nudgeIntake s) := by
  unfold nudgeIntake
  split
  · exact h.after_watch_tally ‹_›
  · exact h
  · exact h
  · exact h
  · exact h.after_retryIntake ‹_›
  · exact h

theorem IntakeLegal.after_pollChanged {s : State} (h : IntakeLegal s) (before : BitVec 2) : IntakeLegal (pollChanged before s) := by
  unfold pollChanged
  split
  · exact h
  · exact h

/-- A page record leaves. -/
theorem IntakeLegal.after_dropOldest {s : State} (h : IntakeLegal s) : IntakeLegal (dropOldest s) := by
  obtain ⟨hcount, hstart, hreads, hlive, hdrain, hrecords, hroom, hbroken⟩ := h
  have htail : (dropOldest s).intake.records.length ≤ s.intake.records.length := by simp [dropOldest]
  exact ⟨hcount, hstart, hreads, hlive, hdrain, Nat.le_trans htail hrecords, fun hreq => Nat.le_trans htail (hroom hreq),
    fun hstate hstep => Nat.le_trans htail (hbroken hstate hstep)⟩

theorem IntakeLegal.after_releaseDone {s : State} (h : IntakeLegal s) : IntakeLegal (releaseDone s) := by
  have hdropped : IntakeLegal (releaseTest (requestHeaderUpdate (dropOldest s))) :=
    (Keeps.after_releaseTest _).side.toSameReads.intakeLegal ((SameReads.of_requestHeaderUpdate _).intakeLegal h.after_dropOldest)
  exact hdropped.after_stalledPagesTest.after_drainedTest

/-! ## The arbiter (R186) -/

theorem issueEffect_requested (r x : Request) (s : State) : Requested (issueEffect r s) x ↔ Requested s x := by
  rw [Requested, Requested, (issueEffect_frame r s).2.2.1]

/-- An issued request passes from the queue to the bus. -/
theorem requested_issueRequest {s : State} {r : Request} (hmem : r ∈ s.channel.queue) (hout : s.channel.outstanding = none) (x : Request) :
    Requested (issueRequest r s) x ↔ Requested s x := by
  have hmove : x ∈ s.channel.queue.erase r ∨ r = x ↔ x ∈ s.channel.queue := by
    rw [(List.perm_cons_erase hmem).mem_iff, List.mem_cons]
    exact ⟨fun h => h.symm.imp Eq.symm id, fun h => h.symm.imp id Eq.symm⟩
  rw [issueRequest, issueEffect_requested]
  simpa [Requested, hout] using hmove

theorem intakeRequests_congr {s t : State} (h : t.channel = s.channel) : intakeRequests t = intakeRequests s := by
  rw [intakeRequests, intakeRequests, intakeOutstanding, intakeOutstanding, h]

theorem intakeRequests_issueRequest {s : State} {r : Request} (hmem : r ∈ s.channel.queue) (hout : s.channel.outstanding = none) :
    intakeRequests (issueRequest r s) = intakeRequests s := by
  rw [issueRequest, intakeRequests_congr (issueEffect_frame r _).2.2.1]
  rw [intakeRequests, intakeRequests, countP_erase_mem Request.isIntake _ r hmem]
  cases hr : r.isIntake <;> simp [intakeOutstanding, hout, hr]

/-- The fields of the intake that an issue leaves. -/
theorem intakeView_issueEffect (r : Request) (s : State) : intakeView (issueEffect r s).intake = intakeView s.intake := by
  unfold issueEffect
  split <;> rfl

theorem IntakeLegal.after_issueAccess {s : State} (h : IntakeLegal s) : IntakeLegal (issueAccess s) := by
  rcases issueAccess_cases s with hsame | ⟨r, hmem, hout, -, -, -, hissue⟩
  · rwa [hsame]
  · obtain ⟨hcount, hstart, hreads, hlive, hdrain, hrecords, hroom, hbroken⟩ := h
    have hnone : intakeOutstanding s = false := by simp [intakeOutstanding, hout]
    have hview : intakeView (issueRequest r s).intake = intakeView s.intake := intakeView_issueEffect r _
    simp only [intakeView, Prod.mk.injEq] at hview
    obtain ⟨hstate, -, hfailed, hlength, -⟩ := hview
    have hengine : (issueRequest r s).engine = s.engine := by simp
    rw [hissue, IntakeLegal]
    simp only [intakeRequests_issueRequest hmem hout, requested_issueRequest hmem hout, hstate, hfailed, hlength, hengine,
      engineLive_congr hengine]
    exact ⟨hcount, hstart, hreads, hlive, fun hdraining => .inl ((hdrain hdraining).resolve_right (by simp [hnone])), hrecords, hroom, hbroken⟩

end Sys2Proof.Safety
end

section
/-! PROOFS. The events at which orders come to the pool and leave it, the issue of an access, and the resets, keep the invariants. -/

namespace Sys2Proof.Safety

open Sys2Proof.Machine

/-! ## The issue of an access (R186) -/

theorem headerFlagAgrees_issueRequest {s : State} {r : Request} (hmem : r ∈ s.channel.queue) (h : HeaderFlagAgrees s) :
    HeaderFlagAgrees (issueRequest r s) := by
  have hqueue : (issueRequest r s).channel.queue = s.channel.queue.erase r := by
    rw [issueRequest, (issueEffect_frame r _).2.2.1]
  rw [HeaderFlagAgrees, hqueue]
  by_cases hr : r = .headerUpdate
  · subst hr
    have hpos : 0 < s.channel.queue.count .headerUpdate := List.count_pos_iff.mpr hmem
    have hone : s.channel.queue.count .headerUpdate ≤ 1 := by
      rw [h]
      split <;> omega
    rw [List.count_erase_self]
    simp only [issueRequest, issueEffect]
    simp
    omega
  · have hpending : (issueRequest r s).reporting.headerPending = s.reporting.headerPending := by
      unfold issueRequest issueEffect
      split
      · exact absurd rfl hr
      · rfl
      · rfl
    rw [hpending, List.count_erase_of_ne (Ne.symm hr)]
    exact h

theorem issueEffect_poll (r : Request) (s : State) (h : PollLegal s.intake) : PollLegal (issueEffect r s).intake := by
  unfold issueEffect
  split <;> exact h

theorem KeepsBase.after_issueAccess (s : State) : KeepsBase s (issueAccess s) := by
  have hwrites := fun i => Nat.le_of_eq (reportWrites_issueAccess s i)
  rcases issueAccess_cases s with hsame | ⟨r, hmem, -, -, -, -, hissue⟩
  · rw [hsame]
    exact .refl s
  · rw [hissue] at hwrites ⊢
    refine .of_work (by simp [SameWork]) ⟨headerFlagAgrees_issueRequest hmem, hwrites⟩ (fun hs => ?_) (by simp [CancelListLegal])
      (by simp [CountsAgree])
    exact issueEffect_poll r _ hs

theorem Preserves.after_issueAccess (s : State) : Preserves s (issueAccess s) :=
  ⟨.after_issueAccess s, .after_issueAccess, fun _ => SamePool.poolAgrees (by simp [SamePool])⟩

theorem Keeps.after_idleFollow (s : State) : Keeps s (idleFollow s) := by
  refine .ite (fun hrun => .ite (fun _ => .refl s) fun _ => .of_mode _ fun ⟨_, hwake⟩ => ⟨fun _ => ?_, hwake⟩) fun _ =>
    .of_mode _ fun ⟨_, hwake⟩ => ⟨fun hidle => (nomatch hidle), hwake⟩
  simp only [Bool.and_eq_true, beq_iff_eq] at hrun
  exact hrun.1

theorem Keeps.after_idleRestart (s : State) : Keeps s (idleRestart s) := by
  refine .ite (fun hrun => .of_mode _ fun ⟨_, hwake⟩ => ⟨fun _ => ?_, hwake⟩) fun _ => .refl s
  simp only [Bool.and_eq_true, beq_iff_eq] at hrun
  exact hrun.1

/-- What follows an event keeps every invariant. -/
theorem Preserves.after_settle (s u : State) : Preserves u (settle s u) :=
  ((Keeps.after_retestIfMoved s u).trans (.after_idleFollow _)).preserves.trans (.after_issueAccess _)

theorem Preserves.after_tableEvent {f : State → State} {s : State} (h : Preserves s (f s)) : Preserves s (tableEvent f s) :=
  h.trans (.after_settle s (f s))

/-- A response acts on the access it awaits. -/
theorem Preserves.after_onResponse {s : State} (tag : Nat) {sort : Request → Bool} {f : Access → State → State}
    (h : ∀ a, s.channel.outstanding = some a → sort a.request = true → Preserves s (f a (freed s))) : Preserves s (onResponse tag sort f s) := by
  rcases onResponse_cases tag sort f s with heq | ⟨a, hout, -, hsort, heq⟩
  · rw [heq]
    exact .refl s
  · rw [heq]
    exact (h a hout hsort).trans (.after_settle _ _)

theorem Preserves.after_drainedTest (s : State) : Preserves s (drainedTest s) := by
  refine ⟨.after_drainedTest s, .after_drainedTest, fun _ hs => ?_⟩
  unfold drainedTest
  split
  · rename_i hdrained
    have hempty : occupied s = 0 := by
      simp only [drained, Bool.and_eq_true, decide_eq_true_eq] at hdrained
      exact hdrained.1.1.2
    exact ⟨hs.1, fun _ => hempty⟩
  · exact hs

/-- An access that is no INTAKE request ends. -/
theorem Preserves.after_freed {s : State} {a : Access} (hout : s.channel.outstanding = some a) (ha : a.request.isIntake = false) :
    Preserves s (freed s) :=
  ⟨.after_freed s, (SameReads.of_freed hout ha).intakeLegal, fun _ => id⟩

/-! ## Occupied slots -/

theorem occupied_set {s t : State} {i : SlotId} (h : ∀ j, j ≠ i → (slotOrder t j).isSome = (slotOrder s j).isSome)
    (hs : slotOrder s i = none) (ht : (slotOrder t i).isSome = true) : occupied t = occupied s + 1 := by
  have hset : t.pool.slots.toList.countP Option.isSome = (s.pool.slots.set i (t.pool.slots[i])).toList.countP Option.isSome := by
    rw [vector_countP_eq, vector_countP_eq]
    congr 1
    funext j
    by_cases hj : j = i
    · subst hj
      rw [getElem_set_same]
    · rw [getElem_set_other _ _ _ _ hj]
      exact h j hj
  have hold : s.pool.slots.toList[i.val]'(by simp) = none := by
    simpa [slotOrder] using hs
  have hnew : (t.pool.slots[i]).isSome = true := ht
  rw [occupied, occupied, hset, Vector.toList_set, List.countP_set (by simp), hold, hnew]
  simp

/-! ## The take (R39) -/

/-- The pool and the intake once the order of entry `e` is in slot `i`. -/
def taken (e : EntryWords) (i : SlotId) (s : State) : State := { s with pool := takePool e i s, intake := takeIntake s.intake }

section Take

variable {e : EntryWords} {i : SlotId} {s : State}

theorem slotOrder_taken (e : EntryWords) (i : SlotId) (s : State) (j : SlotId) :
    slotOrder (taken e i s) j = if j = i then some (takenOrder e s) else slotOrder s j := slotOrder_setSlot i j _ s

theorem queues_taken (e : EntryWords) (i : SlotId) (s : State) (m : Lane) :
    (taken e i s).pool.queues[m] = if m = e.lane then s.pool.queues[m] ++ [i] else s.pool.queues[m] := by
  have hqueues : (taken e i s).pool.queues = s.pool.queues.set e.lane (s.pool.queues[e.lane] ++ [i]) := rfl
  rw [hqueues]
  by_cases hm : m = e.lane
  · subst hm
    rw [getElem_set_same, if_pos rfl]
  · rw [getElem_set_other _ _ _ _ hm, if_neg hm]

theorem slot_ne_of_free {j : SlotId} {o : PoolOrder} (hi : slotOrder s i = none) (ho : slotOrder s j = some o) : j ≠ i := by
  rintro rfl
  exact nomatch hi.symm.trans ho

theorem slotOrder_taken_other {j : SlotId} {o : PoolOrder} (hi : slotOrder s i = none) (ho : slotOrder s j = some o) :
    slotOrder (taken e i s) j = some o := by
  rw [slotOrder_taken, if_neg (slot_ne_of_free hi ho), ho]

theorem laneOrder_taken (hi : slotOrder s i = none) {m : Lane} {o : PoolOrder} (ho : laneOrder s m = some o) :
    laneOrder (taken e i s) m = some o := by
  obtain ⟨d, hd, hslot⟩ := laneOrder_eq_some ho
  exact (laneOrder_of_entry (s := taken e i s) hd).trans (slotOrder_taken_other hi hslot)

theorem OrdersPlaced.after_taken (h : OrdersPlaced s) (hi : slotOrder s i = none) : OrdersPlaced (taken e i s) := by
  refine ⟨fun m d hd => ?_, fun m => ⟨?_, fun j hj => ?_⟩, fun j o ho hlife => ?_, fun j o ho hlife => ?_, fun j => ⟨?_, fun hj => ?_⟩⟩
  · obtain ⟨o, ho, hlane⟩ := h.entry_order hd
    exact ⟨o, slotOrder_taken_other hi ho, hlane⟩
  · rw [queues_taken]
    have hnew : i ∉ s.pool.queues[m] := fun hmem => by
      obtain ⟨o, ho, -⟩ := h.queue_order hmem
      exact slot_ne_of_free hi ho rfl
    split
    · exact List.nodup_append.mpr ⟨h.queue_nodup m, List.pairwise_singleton _ i, fun x hx y hy hxy => hnew (by simp_all)⟩
    · exact h.queue_nodup m
  · have hold : j ∈ s.pool.queues[m] → ∃ o, slotOrder (taken e i s) j = some o ∧ o.entry.lane = m ∧ o.life = .queued := fun hmem => by
      obtain ⟨o, ho, hlane⟩ := h.queue_order hmem
      exact ⟨o, slotOrder_taken_other hi ho, hlane⟩
    rw [queues_taken] at hj
    split at hj
    · rename_i hm
      rcases List.mem_append.mp hj with hmem | hmem
      · exact hold hmem
      · rw [List.mem_singleton.mp hmem]
        exact ⟨takenOrder e s, by rw [slotOrder_taken, if_pos rfl], hm.symm, rfl⟩
    · exact hold hj
  · rw [queues_taken]
    rw [slotOrder_taken] at ho
    split at ho
    · rename_i hj
      cases ho
      rw [if_pos (show (takenOrder e s).entry.lane = e.lane from rfl), hj]
      exact List.mem_append_right _ (List.mem_singleton_self i)
    · have hmem := h.queued ho hlife rfl
      split
      · exact List.mem_append_left _ hmem
      · exact hmem
  · rw [slotOrder_taken] at ho
    split at ho
    · cases ho
      exact absurd rfl hlife
    · exact h.held ho hlife
  · exact h.writes_le j
  · obtain ⟨o, ho, hlife⟩ := h.write_reporting (s := s) hj
    exact ⟨o, slotOrder_taken_other hi ho, hlife⟩

theorem keepsTable_taken (hi : slotOrder s i = none) (h : OrdersPlaced s) : KeepsTable s (taken e i s) where
  placed := h.after_taken hi
  generators hs m g hg := by
    obtain ⟨o, ho, hlife⟩ := hs m g hg
    exact ⟨o, laneOrder_taken hi ho, hlife⟩
  interlock hs := by
    have hback {m : Lane} {d : TableEntry} {o : PoolOrder} (hd : laneEntry s m = some d) (ho : slotOrder (taken e i s) d.slot = some o) :
        slotOrder s d.slot = some o := by
      obtain ⟨x, hx, -⟩ := h.entry_order hd
      rw [slotOrder_taken_other hi hx] at ho
      rwa [← ho]
    obtain ⟨hkind, hpresent, hconflict⟩ := hs
    refine ⟨fun m d o f hd ho => hkind m d o f hd (hback hd ho), fun m d o ⟨hd, ho, hlife⟩ => hpresent m d o ⟨hd, hback hd ho, hlife⟩,
      fun l m d e x y f g hne ⟨hd, hx, hlx⟩ ⟨he, hy, hly⟩ => hconflict l m d e x y f g hne ⟨hd, hback hd hx, hlx⟩ ⟨he, hback he hy, hly⟩⟩

theorem KeepsBase.after_taken (hi : slotOrder s i = none) : KeepsBase s (taken e i s) := by
  refine .of_table (by simp [SameArea, SameCells, taken]) id (by exact id) (fun ⟨hlength, hnodup⟩ => ?_) (fun hs => ?_) (keepsTable_taken hi)
  · exact ⟨Nat.le_trans List.length_erase_le hlength, hnodup.erase _⟩
  · exact congrArg (· + 1) hs

theorem PoolAgrees.after_taken (hi : slotOrder s i = none) (hrunning : s.engine.state = .running) (h : PoolAgrees s) : PoolAgrees (taken e i s) := by
  have hocc : occupied (taken e i s) = occupied s + 1 :=
    occupied_set (fun j hj => by rw [slotOrder_taken, if_neg hj]) hi (by rw [slotOrder_taken, if_pos rfl]; rfl)
  refine ⟨?_, fun hstate => ?_⟩
  · have hcounts : (taken e i s).pool.taken = s.pool.taken + 1 ∧ (taken e i s).pool.finished = s.pool.finished := ⟨rfl, rfl⟩
    rw [hocc, hcounts.1, hcounts.2, BitVec.ofNat_add, h.1]
    bv_omega
  · have hengine : (taken e i s).engine.state = .running := hrunning
    simp [hengine] at hstate

theorem Ready.after_taken (h : Ready s) : Ready (taken e i s) :=
  ⟨h.requests, h.running, Nat.le_trans (Nat.le_of_eq (updateYoungest_length _ _)) h.records⟩

theorem freeSlot_free (h : freeSlot s = some i) : slotOrder s i = none := by
  have hnone := List.find?_some h
  simpa using hnone

end Take

theorem takeOrder_some {e : EntryWords} {i : SlotId} {s : State} (h : freeSlot s = some i) :
    takeOrder e s = afterTake (promote e.lane (taken e i s)) := by
  simp [takeOrder, h, taken]

theorem takeOrder_none {e : EntryWords} {s : State} (h : freeSlot s = none) : takeOrder e s = s := by simp [takeOrder, h]

theorem KeepsBase.after_entryDone (e : EntryWords) (s : State) : KeepsBase s (entryDone e s) := by
  refine .ite (fun _ => ?_) fun _ => .after_breakIntake .entryMismatch .entry s
  cases hfree : freeSlot s with
  | none =>
    rw [takeOrder_none hfree]
    exact .refl s
  | some i =>
    rw [takeOrder_some hfree]
    exact ((KeepsBase.after_taken (freeSlot_free hfree)).trans (Keeps.after_promote _ _).base).trans (.after_afterTake _)

theorem IntakeLegal.after_entryDone {s : State} (h : Ready s) (hlegal : IntakeLegal s) (e : EntryWords) : IntakeLegal (entryDone e s) := by
  unfold entryDone
  split
  · cases hfree : freeSlot s with
    | none => rwa [takeOrder_none hfree]
    | some i =>
      rw [takeOrder_some hfree]
      exact .after_afterTake ((Keeps.after_promote _ _).side.toSameReads.ready h.after_taken)
  · exact .after_breakIntake h _ (hasRoom_of_step (.inr rfl) s)

theorem PoolAgrees.after_entryDone {s : State} (hrunning : s.engine.state = .running) (h : PoolAgrees s) (e : EntryWords) :
    PoolAgrees (entryDone e s) := by
  unfold entryDone
  split
  · cases hfree : freeSlot s with
    | none => rwa [takeOrder_none hfree]
    | some i =>
      have hpromoted : PoolAgrees (promote e.lane (taken e i s)) :=
        (Keeps.after_promote _ _).side.poolAgrees (h.after_taken (freeSlot_free hfree) hrunning)
      rw [takeOrder_some hfree]
      exact SamePool.poolAgrees (by simp [SamePool]) hpromoted
  · exact SamePool.poolAgrees (by simp [SamePool]) h

/-! ## Reports that complete (R12, R14) -/

/-- The ESTATE write takes the place of the result write. -/
theorem Preserves.after_resultDone {s : State} {a : Access} (hout : s.channel.outstanding = some a) (ha : a.request.resultSlot.isSome = true) :
    Preserves s (resultDone a (freed s)) := by
  obtain ⟨i, hi⟩ : ∃ i, a.request = .result i := by
    cases hr : a.request <;> simp_all [Request.resultSlot]
  have hdone : resultDone a (freed s) = placeRequest (.estate i) (freed s) := by simp [resultDone, hi, Request.resultSlot]
  have hreads : SameReads s (placeRequest (.estate i) (freed s)) :=
    (SameReads.of_freed hout (by rw [hi]; rfl)).trans (sameIntakeSide_placeRequest rfl _).toSameReads
  rw [hdone]
  refine ⟨.of_work (by simp [SameWork, freed]) ⟨fun hs => ?_, fun j => ?_⟩ (by exact id) (by exact id) (by exact id), hreads.intakeLegal,
    fun _ => SamePool.poolAgrees ⟨rfl, rfl⟩⟩
  · exact headerFlagAgrees_placeRequest (by simp) (s := freed s) hs
  · rw [reportWrites_placeRequest, reportWrites_freed hout j, hi]
    simp

/-- The order of slot `i` has left the pool and its lane entry (R14 1 to 5). -/
def leaveLane (i : SlotId) (o : PoolOrder) (s : State) : State := setEntry o.entry.lane none (leavePool i o s)

section Leave

variable {i : SlotId} {o : PoolOrder} {s : State}

theorem slotOrder_leaveLane (i : SlotId) (o : PoolOrder) (s : State) (j : SlotId) :
    slotOrder (leaveLane i o s) j = if j = i then none else slotOrder s j := slotOrder_setSlot i j none s

theorem laneEntry_leaveLane (i : SlotId) (o : PoolOrder) (s : State) (m : Lane) :
    laneEntry (leaveLane i o s) m = if m = o.entry.lane then none else laneEntry s m := laneEntry_setEntry o.entry.lane m none (leavePool i o s)

/-- The order in slot `i` reports in its lane, and its last write ends. -/
structure Leaves (s : State) (i : SlotId) (o : PoolOrder) : Prop where
  order : slotOrder s i = some o
  last : reportWrites (freed s) i + 1 = reportWrites s i

theorem Leaves.life (h : Leaves s i o) (hs : OrdersPlaced s) : o.life = .reporting := by
  obtain ⟨x, hx, hlife⟩ := hs.write_reporting (i := i) (Nat.le_antisymm (hs.writes_le i) (by have := h.last; omega))
  cases h.order.symm.trans hx
  exact hlife

theorem Leaves.entry (h : Leaves s i o) (hs : OrdersPlaced s) : ∃ e, laneEntry s o.entry.lane = some e ∧ e.slot = i :=
  hs.held h.order (by simp [h.life hs])

/-- An entry that stays holds another order. -/
theorem Leaves.stays (h : Leaves s i o) (hs : OrdersPlaced s) {m : Lane} {d : TableEntry}
    (hd : laneEntry (leaveLane i o (freed s)) m = some d) :
    m ≠ o.entry.lane ∧ laneEntry s m = some d ∧ slotOrder (leaveLane i o (freed s)) d.slot = slotOrder s d.slot := by
  rw [laneEntry_leaveLane] at hd
  split at hd
  · exact nomatch hd
  · rename_i hm
    obtain ⟨e, he, hslot⟩ := h.entry hs
    have hne : d.slot ≠ i := hslot ▸ hs.slot_ne hd he hm
    refine ⟨hm, hd, ?_⟩
    rw [slotOrder_leaveLane, if_neg hne]
    rfl

theorem Leaves.placed (h : Leaves s i o) (hs : OrdersPlaced s) : OrdersPlaced (leaveLane i o (freed s)) := by
  have hlife := h.life hs
  have hother {j : SlotId} {x : PoolOrder} (hx : slotOrder (leaveLane i o (freed s)) j = some x) : j ≠ i ∧ slotOrder s j = some x := by
    rw [slotOrder_leaveLane] at hx
    split at hx
    · exact nomatch hx
    · exact ⟨‹_›, hx⟩
  have hkept {j : SlotId} (hj : j ≠ i) : slotOrder (leaveLane i o (freed s)) j = slotOrder s j := by
    rw [slotOrder_leaveLane, if_neg hj]
    rfl
  refine ⟨fun m d hd => ?_, fun m => ⟨hs.queue_nodup m, fun j hj => ?_⟩, fun j x hx hqueued => ?_, fun j x hx hheld => ?_, fun j => ⟨?_, fun hj => ?_⟩⟩
  · obtain ⟨-, hentry, hslot⟩ := h.stays hs hd
    rw [hslot]
    exact hs.entry_order hentry
  · obtain ⟨x, hx, hlane, hq⟩ := hs.queue_order (l := m) hj
    have hne : j ≠ i := by
      rintro rfl
      cases h.order.symm.trans hx
      exact nomatch hlife.symm.trans hq
    exact ⟨x, (hkept hne).trans hx, hlane, hq⟩
  · exact hs.queued (hother hx).2 hqueued rfl
  · obtain ⟨hne, hslot⟩ := hother hx
    obtain ⟨d, hd, hdslot⟩ := hs.held hslot hheld
    obtain ⟨e, he, heslot⟩ := h.entry hs
    have hlane : x.entry.lane ≠ o.entry.lane := fun heq => by
      rw [heq, he] at hd
      cases hd
      exact hne (hdslot.symm.trans heslot)
    exact ⟨d, by rw [laneEntry_leaveLane, if_neg hlane]; exact hd, hdslot⟩
  · exact Nat.le_trans (reportWrites_freed_le s j) (hs.writes_le j)
  · have hj : reportWrites (freed s) j = 1 := hj
    have hle := reportWrites_freed_le s j
    have hone := hs.writes_le j
    have hlast := h.last
    obtain ⟨x, hx, hreport⟩ := hs.write_reporting (i := j) (by omega)
    have hne : j ≠ i := by
      rintro rfl
      omega
    exact ⟨x, (hkept hne).trans hx, hreport⟩

theorem Leaves.keepsTable (h : Leaves s i o) (hs : OrdersPlaced s) : KeepsTable s (leaveLane i o (freed s)) where
  placed := h.placed hs
  generators hgen m g hg := by
    obtain ⟨x, hx, hlife⟩ := hgen m g hg
    obtain ⟨d, hd, hslot⟩ := laneOrder_eq_some hx
    have hm : m ≠ o.entry.lane := by
      rintro rfl
      obtain ⟨e, he, heslot⟩ := h.entry hs
      cases hd.symm.trans he
      cases (heslot ▸ hslot).symm.trans h.order
      simp [h.life hs] at hlife
    have hentry : laneEntry (leaveLane i o (freed s)) m = some d := by rw [laneEntry_leaveLane, if_neg hm]; exact hd
    exact ⟨x, by rw [laneOrder_of_entry hentry, (h.stays hs hentry).2.2, hslot], hlife⟩
  interlock hint := by
    have hwork {m : Lane} {d : TableEntry} {x : PoolOrder} (hw : AtWork (leaveLane i o (freed s)) m d x) : AtWork s m d x := by
      obtain ⟨hd, hx, hlife⟩ := hw
      obtain ⟨-, hentry, hslot⟩ := h.stays hs hd
      exact ⟨hentry, hslot ▸ hx, hlife⟩
    obtain ⟨hkind, hpresent, hconflict⟩ := hint
    refine ⟨fun m d x f hd hx => ?_, fun m d x hw => hpresent m d x (hwork hw),
      fun l m d e x y f g hne hd he => hconflict l m d e x y f g hne (hwork hd) (hwork he)⟩
    obtain ⟨-, hentry, hslot⟩ := h.stays hs hd
    exact hkind m d x f hentry (hslot ▸ hx)

theorem Leaves.sameReads {a : Access} (hout : s.channel.outstanding = some a) (ha : a.request.isIntake = false) :
    SameReads s (leaveLane i o (freed s)) :=
  ⟨rfl, by simp [intakeView, leaveLane, setEntry, leavePool, freed, countFinished], (SameReads.of_freed hout ha).outstanding, rfl⟩

theorem PoolAgrees.after_leaveLane (h : slotOrder s i = some o) (hs : PoolAgrees s) : PoolAgrees (leaveLane i o (freed s)) := by
  have hocc : occupied s = occupied (leaveLane i o (freed s)) + 1 := by
    refine occupied_set (fun j hj => ?_) (by rw [slotOrder_leaveLane, if_pos rfl]) (by rw [h]; rfl)
    rw [slotOrder_leaveLane, if_neg hj]
    rfl
  obtain ⟨hcount, hempty⟩ := hs
  refine ⟨?_, fun hstate => ?_⟩
  · have hcounts : (leaveLane i o (freed s)).pool.taken = s.pool.taken ∧ (leaveLane i o (freed s)).pool.finished = s.pool.finished + 1 :=
      ⟨rfl, rfl⟩
    rw [hocc, BitVec.ofNat_add] at hcount
    rw [hcounts.1, hcounts.2]
    bv_omega
  · have hzero := hempty hstate
    omega

end Leave

theorem setEntry_requestHeaderUpdate (l : Lane) (e : Option TableEntry) (s : State) :
    setEntry l e (requestHeaderUpdate s) = requestHeaderUpdate (setEntry l e s) := by
  unfold requestHeaderUpdate
  have hask : engineLive (setEntry l e s) = engineLive s ∧ (setEntry l e s).reporting = s.reporting := ⟨rfl, rfl⟩
  rw [hask.1, hask.2]
  split <;> rfl

/-- The order leaves, then the lane's next head, the release and the MARKs follow (R14, R54, R57). -/
theorem finishOrder_eq (i : SlotId) (o : PoolOrder) (s : State) :
    finishOrder i o s = stalledPoolTest (markTests (releaseTest (promote o.entry.lane (requestHeaderUpdate (leaveLane i o s))))) := by
  rw [finishOrder, setEntry_requestHeaderUpdate]
  rfl

theorem Preserves.after_stalledPoolTest (s : State) : Preserves s (stalledPoolTest s) := by
  refine ⟨.after_stalledPoolTest s, .after_stalledPoolTest, fun _ => SamePool.poolAgrees ?_⟩
  unfold stalledPoolTest
  split <;> simp [SamePool]

theorem Preserves.after_estateDone {s : State} {a : Access} (hout : s.channel.outstanding = some a) (ha : a.request.estateSlot.isSome = true) :
    Preserves s (estateDone a (freed s)) := by
  obtain ⟨i, hi⟩ : ∃ i, a.request = .estate i := by
    cases hr : a.request <;> simp_all [Request.estateSlot]
  have hintake : a.request.isIntake = false := by rw [hi]; rfl
  have hslot : a.request.estateSlot = some i := by rw [hi]; rfl
  cases ho : slotOrder s i with
  | none =>
    have hdone : estateDone a (freed s) = freed s := by
      have hfree : slotOrder (freed s) i = none := ho
      simp [estateDone, hslot, hfree]
    rw [hdone]
    exact .after_freed hout hintake
  | some o =>
    have hdone : estateDone a (freed s) = drainedTest (finishOrder i o (freed s)) := by
      have hheld : slotOrder (freed s) i = some o := ho
      simp [estateDone, hslot, hheld]
    have hleaves : Leaves s i o := ⟨ho, by rw [reportWrites_freed hout i, hi]; simp⟩
    have hleft : Preserves s (leaveLane i o (freed s)) :=
      ⟨.of_table (by simp [SameArea, SameCells, leaveLane, leavePool, setEntry, freed]) (by exact id) (by exact id) (by exact id) (by exact id)
        hleaves.keepsTable, (Leaves.sameReads hout hintake).intakeLegal, fun _ => PoolAgrees.after_leaveLane ho⟩
    have hfollow : Keeps (leaveLane i o (freed s))
        (markTests (releaseTest (promote o.entry.lane (requestHeaderUpdate (leaveLane i o (freed s)))))) :=
      (((Keeps.after_requestHeaderUpdate _).trans (.after_promote _ _)).trans (.after_releaseTest _)).trans (.after_markTests _)
    rw [hdone, finishOrder_eq]
    exact ((hleft.trans hfollow.preserves).trans (.after_stalledPoolTest _)).trans (.after_drainedTest _)

/-! ## The resets (R194) -/

/-- No order, no stroke, no request and an intake at its reset values. -/
structure Cleared (s : State) : Prop where
  pool : s.pool = Pool.reset
  table : s.table = Vector.replicate 4 none
  strokes : s.strokes = StrokeEngine.reset
  queue : s.channel.queue = []
  outstanding : s.channel.outstanding = none
  pending : s.reporting.headerPending = false
  intake : s.intake = Intake.reset

section Cleared

variable {s : State}

theorem Cleared.slotOrder (h : Cleared s) (i : SlotId) : slotOrder s i = none := by
  rw [Machine.slotOrder, h.pool]
  simp [Pool.reset]

theorem Cleared.laneEntry (h : Cleared s) (l : Lane) : laneEntry s l = none := by
  rw [Machine.laneEntry, h.table]
  simp

theorem Cleared.occupied (h : Cleared s) : occupied s = 0 := by
  rw [occupied_eq]
  simp [h.slotOrder]

theorem Cleared.reportWrites (h : Cleared s) (i : SlotId) : reportWrites s i = 0 := by simp [Safety.reportWrites, h.queue, h.outstanding]

theorem Cleared.placed (h : Cleared s) : OrdersPlaced s := by
  have hqueue (l : Lane) : s.pool.queues[l] = [] := by
    rw [h.pool]
    simp [Pool.reset]
  simp [OrdersPlaced, h.slotOrder, h.laneEntry, h.reportWrites, hqueue]

theorem Cleared.interlock (h : Cleared s) : InterlockHolds s := by simp [InterlockHolds, AtWork, h.laneEntry]

theorem Cleared.generators (h : Cleared s) : GeneratorsRun s := by
  intro l g hg
  rw [h.strokes] at hg
  simp [StrokeEngine.reset] at hg

theorem Cleared.flight (h : Cleared s) : FlightCapped s := by
  intro l
  simp [inFlight, strokesOf, h.strokes, StrokeEngine.reset]

theorem Cleared.header (h : Cleared s) : HeaderFlagAgrees s := by simp [HeaderFlagAgrees, h.queue, h.pending]

theorem Cleared.cancels (h : Cleared s) : CancelListLegal s := by simp [CancelListLegal, h.pool, Pool.reset]

theorem Cleared.counts (h : Cleared s) : CountsAgree s := by simp [CountsAgree, h.pool, h.intake, Pool.reset, Intake.reset]

theorem Cleared.timers (h : Cleared s) (hmode : ModeTimersLegal s.arrayMode) : TimersLegal s :=
  ⟨by simp [h.intake, Intake.reset], hmode⟩

theorem Cleared.intakeLegal (h : Cleared s) : IntakeLegal s :=
  intakeLegal_of_idle (by simp [intakeRequests, intakeOutstanding, h.queue, h.outstanding]) (by simp [h.intake, Intake.reset])
    (by simp [h.intake, Intake.reset]) (by simp [h.intake, Intake.reset]) (by simp [h.intake, Intake.reset])

theorem Cleared.poolAgrees (h : Cleared s) : PoolAgrees s := by simp [PoolAgrees, h.occupied, h.pool, Pool.reset]

/-- A cleared part satisfies what speaks of orders, channel and intake. -/
theorem Cleared.preserves {t : State} (h : Cleared s) (hcells : MemoryCanonical t → MemoryCanonical s)
    (hmode : ModeTimersLegal t.arrayMode → ModeTimersLegal s.arrayMode) (hstood : StandDownReported t → StandDownReported s) :
    Preserves t s where
  cells := hcells
  header _ := h.header
  cancels _ := h.cancels
  timers hs := h.timers (hmode hs.2)
  flight _ := h.flight
  placed _ := h.placed
  generators _ _ := h.generators
  interlock _ _ := h.interlock
  stood := hstood
  counts _ := h.counts
  intake _ := h.intakeLegal
  pool _ _ := h.poolAgrees

end Cleared

/-- What a reset clears before the ARMING regions go to DROPPED. -/
def clearBlocks (s : State) : State :=
  { s with
    engine := { s.engine with state := .disabled }
    channel := idleChannel s.channel
    reporting := Reporting.reset
    intake := Intake.reset
    pool := Pool.reset
    table := Vector.replicate 4 none
    strokes := StrokeEngine.reset
    banks := Vector.ofFn fun b : BankId => abandonRequests s.banks[b]
    domains := abandonRamps s.domains }

theorem cleared_clearBlocks (s : State) : Cleared (clearBlocks s) := ⟨rfl, rfl, rfl, rfl, rfl, rfl, rfl⟩

/-- The reset of a register or of the engine state beforehand makes no difference to what is cleared. -/
def SameBeside (s t : State) : Prop := t.array = s.array ∧ t.arrayMode = s.arrayMode ∧ t.domains = s.domains ∧ t.banks = s.banks

theorem standDownReported_clearBlocks {s t : State} (h : SameBeside s t) (hs : StandDownReported s) : StandDownReported (clearBlocks t) := by
  obtain ⟨-, -, hdomains, hbanks⟩ := h
  intro v hv hphase
  obtain ⟨w, hw, rfl⟩ : ∃ w, s.domains.serving = some w ∧ { w with owner := none } = v := by
    simpa [clearBlocks, abandonRamps, hdomains] using hv
  obtain ⟨hboth, hreported⟩ := hs w hw hphase
  have hbank (b : BankId) : (clearBlocks t).banks[b] = abandonRequests s.banks[b] := by
    simp [clearBlocks, hbanks]
  refine ⟨hboth, fun b hb hdown hstate => hreported b hb ?_ ?_⟩
  · rw [hbank] at hdown
    exact hdown
  · rw [hbank] at hstate
    exact hstate

theorem Keeps.after_dropAllArming (s : State) : Keeps s (dropAllArming s) :=
  .ite (fun _ => (Keeps.after_mapRegions _ s).trans (.after_handAllK _)) fun _ => .refl s

theorem Preserves.after_resetBlocks {s t : State} (h : SameBeside s t) : Preserves s (resetBlocks t) := by
  have hclear : Preserves s (clearBlocks t) :=
    (cleared_clearBlocks t).preserves (fun hs => by rw [MemoryCanonical, show (clearBlocks t).array = s.array from h.1]; exact hs)
      (fun hs => by rw [show (clearBlocks t).arrayMode = s.arrayMode from h.2.1]; exact hs) (standDownReported_clearBlocks h)
  exact hclear.trans (Keeps.after_dropAllArming (clearBlocks t)).preserves

theorem Preserves.after_engineReset (s : State) : Preserves s (engineReset s) := by
  have hblocks : Preserves s (resetBlocks { s with port := engineResetPort s.port }) := .after_resetBlocks ⟨rfl, rfl, rfl, rfl⟩
  exact hblocks.trans (Keeps.after_idleRestart _).preserves

theorem Keeps.after_forceSleep (s : State) : Keeps s (forceSleep s) := by
  unfold forceSleep
  cases hmode : s.arrayMode.mode with
  | run => exact .after_startSleepEntry (by simp [hmode])
  | enteringSleep | asleep => exact .refl s
  | waking => exact .of_mode _ (by exact id)

theorem Preserves.after_pinReset (s : State) : Preserves s (pinReset s) := by
  have hblocks : Preserves s (resetBlocks { s with port := { PortRegs.reset with resetHeld := true }, engine := EngineRegs.reset }) :=
    .after_resetBlocks ⟨rfl, rfl, rfl, rfl⟩
  exact hblocks.trans (Keeps.after_forceSleep _).preserves

theorem cleared_powerOn (s : State) : Cleared { State.reset with channel := idleChannel s.channel, pending := s.pending } :=
  ⟨rfl, rfl, rfl, rfl, rfl, rfl, rfl⟩

theorem modeTimersLegal_reset : ModeTimersLegal ModeLogic.reset := by simp [ModeTimersLegal, ModeLogic.reset]

theorem Preserves.after_powerOn (s : State) : Preserves s { State.reset with channel := idleChannel s.channel, pending := s.pending } :=
  (cleared_powerOn s).preserves (fun _ => reset_wf) (fun _ => modeTimersLegal_reset) fun _ => standDownReported_of_phase fun _ hv => (nomatch hv)

end Sys2Proof.Safety
end

section
/-! PROOFS. Every command keeps every invariant, and so does every step; all hold after power-on reset. -/

namespace Sys2Proof.Safety

open Sys2Proof.Machine

/-! ## Reads of the intake that end (R26, R31 to R38, R44) -/

/-- The read of a step ends: `f` acts on its result, or an abandoned read is discarded. -/
theorem Preserves.after_intakeResult {s : State} {a : Access} {step : ReadStep} {f : State → State} (hout : s.channel.outstanding = some a)
    (ha : a.request = .intakeRead step) (hbase : KeepsBase (freed s) (f (freed s)))
    (hintake : IntakeLegal s → Ready (freed s) → HasRoom step (freed s) → IntakeLegal (f (freed s)))
    (hpool : Ready (freed s) → PoolAgrees (freed s) → PoolAgrees (f (freed s))) : Preserves s (drainedTest (intakeResult f (freed s))) := by
  refine Preserves.trans ⟨(KeepsBase.after_freed s).trans (.after_intakeResult hbase), fun h => h.after_intakeResult hout ha (hintake h),
    fun h hs => ?_⟩ (.after_drainedTest _)
  obtain ⟨-, -, hready, -⟩ := h.read_ends hout ha
  unfold intakeResult
  split
  · exact SamePool.poolAgrees (s := freed s) (by simp [SamePool]) hs
  · exact hpool (hready (by simp_all [freed])) hs

theorem isRead_iff (step : ReadStep) (r : Request) : r.isRead step = true ↔ r = .intakeRead step := by
  cases r <;> simp [Request.isRead]

/-- An intake read of a step that moves no order completes. -/
theorem Preserves.after_readComplete {s : State} (tag : Nat) (step : ReadStep) {f : State → State} (hbase : ∀ t, KeepsBase t (f t))
    (hintake : ∀ t, Ready t → HasRoom step t → IntakeLegal (f t)) (hpool : ∀ t, SamePool t (f t)) : Preserves s (readComplete tag step f s) :=
  .after_onResponse tag fun _ hout ha =>
    .after_intakeResult hout ((isRead_iff step _).mp ha) (hbase _) (fun _ => hintake _) fun _ => (hpool _).poolAgrees

theorem samePool_tallyDone (p : Word) (s : State) : SamePool s (tallyDone p s) := by
  unfold tallyDone
  dsimp only
  (repeat' split) <;> simp [SamePool, setTarget]

theorem samePool_nextDone (n : Word) (s : State) : SamePool s (nextDone n s) := by
  unfold nextDone
  (repeat' split) <;> simp [SamePool]

theorem samePool_firstSeqDone (f : Word) (s : State) : SamePool s (firstSeqDone f s) := by
  unfold firstSeqDone leavePage enterPage
  (repeat' split) <;> simp [SamePool]

theorem Preserves.after_entryReadComplete (tag : Nat) (e : EntryWords) (s : State) : Preserves s (readComplete tag .entry (entryDone e) s) :=
  .after_onResponse tag fun a hout ha => by
    have hread := (isRead_iff .entry _).mp ha
    refine .after_intakeResult hout hread (.after_entryDone e _) (fun h hready _ => ?_) fun hready hs => hs.after_entryDone hready.running e
    have hreading : (freed s).intake.state = .reading := h.2.2.1 .entry (.inr ⟨a, hout, hread⟩)
    exact .after_entryDone hready (hready.legal (by simp [hreading])) e

theorem Preserves.after_intakeReadFails {s : State} {a : Access} {step : ReadStep} (hout : s.channel.outstanding = some a)
    (ha : a.request = .intakeRead step) : Preserves s (intakeReadFails step (freed s)) :=
  .after_intakeResult hout ha (.after_breakIntake .bus step _) (fun _ hready hroom => .after_breakIntake hready .bus hroom)
    fun _ => SamePool.poolAgrees (by simp [SamePool])

/-! ## The engine (R189 to R193) -/

theorem PoolAgrees.after_enterHalted {s : State} (h : PoolAgrees s) (reason : HaltReason) : PoolAgrees (enterHalted reason s) :=
  ⟨h.1, by simp⟩

theorem PoolAgrees.after_drainedTest {s : State} (h : PoolAgrees s) : PoolAgrees (drainedTest s) := by
  unfold drainedTest
  split
  · rename_i hdrained
    have hempty : occupied s = 0 := by
      simp only [drained, Bool.and_eq_true, decide_eq_true_eq] at hdrained
      exact hdrained.1.1.2
    exact ⟨h.1, fun _ => hempty⟩
  · exact h

theorem PoolAgrees.after_disableEngine {s : State} (h : PoolAgrees s) : PoolAgrees (disableEngine s) := by
  have hdraining : PoolAgrees { s with engine := { s.engine with state := .draining } } := ⟨h.1, by simp⟩
  exact PoolAgrees.after_drainedTest (SamePool.poolAgrees (by simp [SamePool]) hdraining)

/-- The counts start anew over an empty pool. -/
theorem PoolAgrees.after_beginRun {s : State} (h : PoolAgrees s) (hstarting : s.engine.state = .starting) (page : Word) :
    PoolAgrees (beginRun page s) := by
  have hempty : occupied (beginCounts page s) = 0 := h.2 (.inr hstarting)
  have hcounts : PoolAgrees (beginCounts page s) := by
    refine ⟨?_, fun _ => hempty⟩
    have hzero : (beginCounts page s).pool.taken = 0 ∧ (beginCounts page s).pool.finished = 0 := ⟨rfl, rfl⟩
    rw [hempty, hzero.1, hzero.2, BitVec.sub_self]
  exact SamePool.poolAgrees (by simp [SamePool, beginRun_eq]) hcounts

theorem PoolAgrees.after_startReadDone {s : State} (h : PoolAgrees s) (hstarting : s.engine.state = .starting) (page : Word) :
    PoolAgrees (startReadDone page s) := by
  unfold startReadDone
  split
  · exact h.after_enterHalted .start
  · split
    · exact h.after_beginRun hstarting page
    · exact (h.after_beginRun hstarting page).after_disableEngine

theorem Preserves.after_startReadDone {s : State} {a : Access} (hout : s.channel.outstanding = some a) (ha : a.request = .startRead)
    (page : Word) : Preserves s (startReadDone page (freed s)) := by
  refine ⟨(KeepsBase.after_freed s).trans (.after_startReadDone page _), fun h => ?_, fun h hs => ?_⟩
  · obtain ⟨-, hrequests, hoff⟩ := h.start_ends hout ha
    exact .after_startReadDone hrequests hoff h.2.2.2.2.2.1 page
  · obtain ⟨hstarting, -⟩ := h.start_ends hout ha
    exact PoolAgrees.after_startReadDone (s := freed s) hs hstarting page

theorem Preserves.after_startReadFails {s : State} {a : Access} (hout : s.channel.outstanding = some a) (ha : a.request = .startRead) :
    Preserves s (enterHalted .start (freed s)) := by
  refine ⟨(KeepsBase.after_freed s).trans (.after_enterHalted .start _), fun h => ?_, fun _ hs => PoolAgrees.after_enterHalted (s := freed s) hs .start⟩
  obtain ⟨-, hrequests, hoff⟩ := h.start_ends hout ha
  exact .after_enterHalted hrequests hoff h.2.2.2.2.2.1 .start

theorem Preserves.after_haltOnReport (s : State) : Preserves s (haltOnReport (freed s)) := by
  refine ⟨(KeepsBase.after_freed s).trans (.after_haltOnReport _), fun h => .after_haltOnReport rfl h.2.2.2.2.2.1, fun _ hs => ?_⟩
  have hhalted : PoolAgrees (enterHalted .reportBus (freed s)) := PoolAgrees.after_enterHalted (s := freed s) hs .reportBus
  exact (haltOnReport_keeps _).side.poolAgrees (SamePool.poolAgrees (by simp [SamePool]) hhalted)

theorem Preserves.after_accessFails {s : State} {a : Access} (hout : s.channel.outstanding = some a) :
    Preserves s (accessFails a.request (freed s)) := by
  cases ha : a.request with
  | startRead => exact .after_startReadFails hout ha
  | intakeRead step => exact .after_intakeReadFails hout ha
  | result _ | estate _ | headerUpdate | release => exact .after_haltOnReport s
  | hostRead i | hostWrite i => exact (Preserves.after_freed hout (by rw [ha]; rfl)).trans (Keeps.after_dataFails i _).preserves

theorem Preserves.after_failResponse (tag : Nat) (sort : Request → Bool) (s : State) : Preserves s (failResponse tag sort s) :=
  .after_onResponse tag fun _ hout _ => .after_accessFails hout

theorem Preserves.after_reissue {s : State} {a : Access} (hout : s.channel.outstanding = some a) : Preserves s (reissue a s) := by
  have hreads : SameReads s (reissue a s) := ⟨rfl, rfl, by simp [reissue, hout], rfl⟩
  refine ⟨.of_work (by simp [SameWork, reissue]) ⟨by exact id, fun i => ?_⟩ (by exact id) (by exact id) (by exact id), hreads.intakeLegal,
    fun _ => SamePool.poolAgrees ⟨rfl, rfl⟩⟩
  simp [reportWrites, reissue, hout]

theorem Preserves.after_expire {s : State} {a : Access} (hout : s.channel.outstanding = some a) : Preserves s (expire a s) := by
  unfold expire
  cases a.stage with
  | first => exact .after_reissue hout
  | reissued => exact (Preserves.after_accessFails hout).trans (.after_settle (freed s) _)

theorem Preserves.after_enableChanged (on : Bool) (s : State) : Preserves s (enableChanged on s) := by
  refine ⟨.after_enableChanged on s, fun h => h.after_enableChanged on, fun _ hs => ?_⟩
  unfold enableChanged
  split
  · rename_i hdisabled
    exact ⟨hs.1, fun _ => hs.2 (.inl hdisabled)⟩
  · have hrunning : PoolAgrees { s with engine := { s.engine with state := .running } } := ⟨hs.1, by simp⟩
    unfold resumeEngine
    dsimp only
    split
    · exact hrunning
    · exact SamePool.poolAgrees (by simp [SamePool]) hrunning
  · exact hs.after_disableEngine
  all_goals exact hs

/-! ## Reports that complete (R14, R17, R20) -/

theorem Preserves.after_headerDone (a : Access) (s : State) : Preserves s (headerDone a s) := by
  have hnotify : Preserves s (if a.carriesNotify then setNotify s else s) :=
    .ite (fun _ => ⟨.of_port _ s, id, fun _ => id⟩) fun _ => .refl s
  exact hnotify.trans (.after_drainedTest _)

theorem Preserves.after_releaseDone (s : State) : Preserves s (releaseDone s) := by
  refine ⟨.after_releaseDone s, .after_releaseDone, fun _ hs => PoolAgrees.after_drainedTest (SamePool.poolAgrees ?_ hs)⟩
  unfold stalledPagesTest
  split <;> simp [SamePool, dropOldest]

/-! ## Registers and timers -/

theorem Preserves.after_nudgeIntake (s : State) : Preserves s (nudgeIntake s) :=
  ⟨.after_nudgeIntake s, .after_nudgeIntake, fun _ => SamePool.poolAgrees (by simp [SamePool])⟩

theorem Preserves.after_watch_tally {s : State} (h : s.intake.state = .watch) : Preserves s (queueRead .tally s) :=
  ⟨.after_queueRead .tally s, fun hs => hs.after_watch_tally h, fun _ => SamePool.poolAgrees (by simp [SamePool])⟩

theorem Preserves.after_pollExpires (s : State) : Preserves s (pollExpires s) :=
  .ite (fun h => .ite (fun _ => .after_watch_tally h.1) fun _ => (Preserves.after_watch_tally h.1).trans (.after_issueAccess _)) fun _ => .refl s

theorem Preserves.after_stalledPagesTest (s : State) : Preserves s (stalledPagesTest s) := by
  refine ⟨.after_stalledPagesTest s, .after_stalledPagesTest, fun _ => SamePool.poolAgrees ?_⟩
  unfold stalledPagesTest
  split <;> simp [SamePool]

/-- Registers that no invariant looks at. -/
theorem Preserves.of_port (p : PortRegs) (s : State) : Preserves s { s with port := p } := ⟨.of_port p s, id, fun _ => id⟩

theorem Preserves.after_pollChanged (before : BitVec 2) (s : State) : Preserves s (pollChanged before s) :=
  ⟨.after_pollChanged before s, fun h => h.after_pollChanged before, fun _ => SamePool.poolAgrees (by simp [SamePool])⟩

theorem Keeps.after_idleCodeChanged (before : BitVec 3) (s : State) : Keeps s (idleCodeChanged before s) :=
  .ite (fun _ => .after_idleRestart s) fun _ => .refl s

theorem Preserves.after_enableFollow (before : Bool) (s : State) : Preserves s (enableFollow before s) :=
  .ite (fun _ => .after_enableChanged s.port.enable s) fun _ => .refl s

theorem Preserves.after_writeControl (v : Word) (s : State) : Preserves s (writeControl v s) :=
  .ite (fun _ => .refl s) fun _ => .ite (fun _ => .after_engineReset s) fun _ =>
    ((((Preserves.of_port _ s).trans (.after_pollChanged _ _)).trans (Keeps.after_idleCodeChanged _ _).preserves).trans
      (.after_enableFollow _ _)).trans (.after_issueAccess _)

/-! ## Banks, ticks and ramps -/

theorem Keeps.of_cells {s : State} (m : ArrayCells) (hm : Memory.wf s.array → Memory.wf m) : Keeps s { s with array := m } where
  toKeepsOrders := .of_control (by simp [SameControl, SameOrderSide]) id hm id
  stood := id

theorem Keeps.after_openDone (b : BankId) (s : State) : Keeps s (openDone b s) :=
  have hopened : Keeps s (setBank b { s.banks[b] with state := .opened } s) :=
    .after_setBank fun hrests => absurd hrests (not_rests_of_state (x := .opened) rfl (by simp))
  hopened.trans (.after_closeOrDecide b _)

theorem Keeps.after_accessDone (b : BankId) (q : BankRequest) (fresh : LineDisturbance) (s : State) : Keeps s (accessDone b q fresh s) := by
  have hcells : Keeps s { s with array := accessCells b q fresh s.array } := .of_cells _ fun hs => accessCells_wf b q fresh s.array hs
  have hopened : Keeps s (setBank b { s.banks[b] with state := .opened, inHand := none } { s with array := accessCells b q fresh s.array }) :=
    hcells.trans (.after_setBank fun hrests => absurd hrests (not_rests_of_state (x := .opened) rfl (by simp)))
  exact (hopened.trans (.after_handResult _ _ _ _)).trans (.after_closeOrDecide b _)

theorem Keeps.after_closeDone (b : BankId) (s : State) : Keeps s (closeDone b s) := (KeepsBut.after_setBank b _ s).after_restOrDecide

theorem Keeps.after_refreshDone (b : BankId) (s : State) : Keeps s (refreshDone b s) :=
  ((KeepsBut.after_setBank b _ s).trans_same (Keeps.after_setRefresh b _ _).toKeepsOrders rfl rfl).after_restOrDecide

theorem Keeps.after_indicationChanged (i : RefreshLevel × Bool) (b : BankId) (s : State) : Keeps s (indicationChanged i b s) :=
  .ite (fun _ => .refl s) fun _ => .after_bankDecide b s

theorem Keeps.after_stopOwner (s : State) (n : OrderName) : Keeps s (stopOwner s n) :=
  .ite (fun _ => .after_toStopping n.lane _ s) fun _ => .refl s

theorem Keeps.after_breach (b : BankId) (s : State) : Keeps s (breach b s) := by
  have hcount : Keeps (handK b (loseRegions b s)) (countBreach (handK b (loseRegions b s))) :=
    .of_same (by simp [SameControl, SameOrderSide, countBreach]) (by simp [SameCells, countBreach]) (by simp [countBreach])
  exact ((((Keeps.after_mapRegions _ s).trans (.after_handK b _)).trans hcount).trans (.after_requestHeaderUpdate _)).trans
    (.foldl .after_stopOwner _ _)

theorem Keeps.after_tickBank (b : BankId) (s : State) : Keeps s (tickBank b s) :=
  .ite (fun _ => (Keeps.after_setRefresh b _ s).trans (.after_indicationChanged _ b _)) fun _ => .after_breach b s

theorem Keeps.after_changeClass (c : TempClass) (s : State) : Keeps s (changeClass c s) := by
  have hclass : Keeps s { s with refresh := { s.refresh with tempClass := c } } :=
    .of_same (by simp [SameControl, SameOrderSide]) (by simp [SameCells]) (by simp)
  refine (hclass.trans (.after_requestHeaderUpdate _)).trans (.ite (fun _ => ?_) fun _ => .refl _)
  exact .of_same (by simp [SameControl, SameOrderSide]) (by simp [SameCells]) (by simp)

theorem Preserves.after_onRamp (phase : SwitchPhase) {f : Served → State → State} {s : State} (hf : ∀ v, Keeps s (f v s)) :
    Preserves s (onRamp phase f s) := by
  unfold onRamp
  split
  · exact .ite (fun _ => .after_tableEvent (hf _).preserves) fun _ => .refl s
  · exact .refl s

/-! ## Every command -/

theorem Preserves.after_exec (s : State) (i : Instr) : ∃ t, exec i s = .next t ∧ Preserves s t := by
  cases i with
  | powerOnReset => exact ⟨_, rfl, .after_powerOn s⟩
  | pinReset => exact ⟨_, rfl, .ite (fun _ => .refl s) fun _ => .after_pinReset s⟩
  | resetNRelease => exact ⟨_, rfl, .of_port _ s⟩
  | engineReset v | engineEnable v | engineDisable v | pollSet v | idleSleepSet v | responseSet v => exact ⟨_, rfl, .after_writeControl _ s⟩
  | exbaseWrite v | eventsWrite v => exact ⟨_, rfl, .ite (fun _ => .refl s) fun _ => .of_port _ s⟩
  | nudge v => exact ⟨_, rfl, .ite (fun _ => .refl s) fun _ => (Preserves.after_nudgeIntake s).trans (.after_issueAccess _)⟩
  | cancel q => exact ⟨_, rfl, .ite (fun _ => .refl s) fun _ => .after_tableEvent (Keeps.after_cancelOrder q s).preserves⟩
  | registerWriteOther | staleResponseDiscard => exact ⟨_, rfl, .refl s⟩
  | pollTimerExpiry => exact ⟨_, rfl, .after_pollExpires s⟩
  | accessIssue => exact ⟨_, rfl, .after_issueAccess s⟩
  | responseLimitExpiry =>
    refine ⟨_, rfl, ?_⟩
    split
    · exact .after_expire ‹_›
    · exact .refl s
  | startReadComplete tag _ page =>
    refine ⟨_, rfl, .after_onResponse tag fun a hout ha => .after_startReadDone hout ?_ page⟩
    cases hr : a.request <;> simp_all [Request.isStart]
  | startReadFail tag | intakeReadFail tag | reportAccessFail tag | dataAccessFail tag => exact ⟨_, rfl, .after_failResponse tag _ s⟩
  | tallyReadComplete tag p =>
    exact ⟨_, rfl, .after_readComplete tag .tally (.after_tallyDone p) (fun _ h _ => .after_tallyDone h p) (samePool_tallyDone p)⟩
  | nextReadComplete tag n =>
    exact ⟨_, rfl, .after_readComplete tag .next (.after_nextDone n) (fun _ h hroom => .after_nextDone h (hroom (.inl rfl)) n) (samePool_nextDone n)⟩
  | firstSeqReadComplete tag f =>
    exact ⟨_, rfl, .after_readComplete tag .header (.after_firstSeqDone f) (fun _ h hroom => .after_firstSeqDone h (hroom (.inr rfl)) f)
      (samePool_firstSeqDone f)⟩
  | entryReadComplete tag e => exact ⟨_, rfl, .after_entryReadComplete tag e s⟩
  | stalledPoolEnd => exact ⟨_, rfl, (Preserves.after_stalledPoolTest s).trans (.after_issueAccess _)⟩
  | stalledPagesEnd => exact ⟨_, rfl, (Preserves.after_stalledPagesTest s).trans (.after_issueAccess _)⟩
  | releaseRequest => exact ⟨_, rfl, (Keeps.after_releaseTest s).preserves.trans (.after_issueAccess _)⟩
  | engineDrained => exact ⟨_, rfl, .after_drainedTest s⟩
  | resultWriteComplete tag => exact ⟨_, rfl, .after_onResponse tag fun _ hout ha => .after_resultDone hout ha⟩
  | estateWriteComplete tag => exact ⟨_, rfl, .after_onResponse tag fun _ hout ha => .after_estateDone hout ha⟩
  | headerUpdateComplete tag =>
    refine ⟨_, rfl, .after_onResponse tag fun a hout ha => (Preserves.after_freed hout ?_).trans (.after_headerDone a _)⟩
    rw [beq_iff_eq.mp ha]
    rfl
  | releaseWriteComplete tag =>
    refine ⟨_, rfl, .after_onResponse tag fun a hout ha => (Preserves.after_freed hout ?_).trans (.after_releaseDone _)⟩
    rw [beq_iff_eq.mp ha]
    rfl
  | promotion l => exact ⟨_, rfl, .after_tableEvent (Keeps.after_promote l s).preserves⟩
  | startTest l => exact ⟨_, rfl, .after_tableEvent (Keeps.after_runStartTest l s).preserves⟩
  | markFinish l => exact ⟨_, rfl, .after_tableEvent (Keeps.after_markTest l s).preserves⟩
  | stoppingEnd l => exact ⟨_, rfl, .after_tableEvent (Keeps.after_endTest l s).preserves⟩
  | bufferGrant => exact ⟨_, rfl, .after_tableEvent (Keeps.after_grants s).preserves⟩
  | strokeIssue l => exact ⟨_, rfl, .after_tableEvent (Keeps.after_issueOne l s).preserves⟩
  | loadHostReadComplete tag data =>
    refine ⟨_, rfl, .after_onResponse tag fun a hout ha => (Preserves.after_freed hout ?_).trans (Keeps.after_hostReadDone data a _).preserves⟩
    cases hr : a.request <;> simp_all [Request.readStroke, Request.isIntake]
  | fetchHostWriteComplete tag =>
    refine ⟨_, rfl, .after_onResponse tag fun a hout ha => (Preserves.after_freed hout ?_).trans (Keeps.after_hostWriteDone a _).preserves⟩
    cases hr : a.request <;> simp_all [Request.writeStroke, Request.isIntake]
  | bankArbiterDecision b => exact ⟨_, rfl, (Keeps.after_bankDecide b s).preserves⟩
  | bankOpenComplete b => exact ⟨_, rfl, .ite (fun _ => (Keeps.after_openDone b s).preserves) fun _ => .refl s⟩
  | bankAccessComplete b disturbed =>
    refine ⟨_, rfl, ?_⟩
    split
    · exact .after_tableEvent (Keeps.after_accessDone b _ disturbed s).preserves
    · exact .refl s
  | bankCloseComplete b => exact ⟨_, rfl, .ite (fun _ => .after_tableEvent (Keeps.after_closeDone b s).preserves) fun _ => .refl s⟩
  | refreshComplete b => exact ⟨_, rfl, .ite (fun _ => .after_tableEvent (Keeps.after_refreshDone b s).preserves) fun _ => .refl s⟩
  | tick due => exact ⟨_, rfl, .ite (fun _ => .after_tableEvent (Keeps.after_tickBank due.bank s).preserves) fun _ => .refl s⟩
  | sampleTimerExpiry c => exact ⟨_, rfl, .ite (fun _ => (Keeps.after_changeClass c s).preserves.trans (.after_issueAccess _)) fun _ => .refl s⟩
  | switchTake => exact ⟨_, rfl, .after_tableEvent (Keeps.after_switchTakes s).preserves⟩
  | rampUpComplete => exact ⟨_, rfl, .after_onRamp .rising fun v => .after_finishRampUp v s⟩
  | drainStart => exact ⟨_, rfl, .after_tableEvent (Keeps.after_drainTest s).preserves⟩
  | rampDownComplete => exact ⟨_, rfl, .after_onRamp .falling fun v => .after_finishRampDown v s⟩
  | idleTimerExpiry =>
    exact ⟨_, rfl, .ite (fun h => .after_tableEvent (Keeps.after_startSleepEntry (by simp [h.1])).preserves) fun _ => .refl s⟩
  | sleepEntryComplete => exact ⟨_, rfl, .after_tableEvent (Keeps.after_sleepEntryTest s).preserves⟩
  | wakeTimerExpiry =>
    exact ⟨_, rfl, .ite (fun _ => .after_tableEvent ((Keeps.after_finishWake s).trans (.after_startTests _)).preserves) fun _ => .refl s⟩

/-- A step takes the front command from the queue, at which no invariant looks, and executes it. -/
theorem Preserves.of_step {s t : State} (h : step s = .next t) : Preserves s t := by
  unfold step at h
  split at h
  · cases h
    exact .refl s
  · rename_i i rest _
    have hrest : Preserves s { s with pending := rest } :=
      (Keeps.of_same (by simp [SameControl, SameOrderSide]) (by simp [SameCells]) (by simp)).preserves
    obtain ⟨u, hu, hkeeps⟩ := Preserves.after_exec { s with pending := rest } i
    cases hu.symm.trans h
    exact hrest.trans hkeeps

/-- Settles O57: no step leaves a cell out of its canonical form. -/
theorem stepKeepsMemoryCanonical : Obligations.StepKeepsMemoryCanonical := fun _ _ hs h => (Preserves.of_step h).cells hs

/-- Two orders at work have footprints of their own, which do not conflict. -/
theorem InterlockHolds.footprints {s : State} (h : InterlockHolds s) {l m : Lane} {x y : PoolOrder} (hne : l ≠ m) (hx : laneOrder s l = some x)
    (hy : laneOrder s m = some y) (hlx : x.life = .running ∨ x.life = .stopping) (hly : y.life = .running ∨ y.life = .stopping) :
    ∃ j k, x.kind = some j ∧ y.kind = some k ∧ (footprintOf x.entry j).conflicts (footprintOf y.entry k) = false := by
  obtain ⟨hkind, hpresent, hconflict⟩ := h
  obtain ⟨d, hd, hxslot⟩ := laneOrder_eq_some hx
  obtain ⟨e, he, hyslot⟩ := laneOrder_eq_some hy
  obtain ⟨f, hf⟩ := Option.ne_none_iff_exists'.mp (hpresent l d x ⟨hd, hxslot, hlx⟩)
  obtain ⟨g, hg⟩ := Option.ne_none_iff_exists'.mp (hpresent m e y ⟨he, hyslot, hly⟩)
  obtain ⟨j, hj, rfl⟩ := hkind l d x f hd hxslot hf
  obtain ⟨k, hk, rfl⟩ := hkind m e y g he hyslot hg
  exact ⟨j, k, hj, hk, hconflict l m d e x y _ _ hne ⟨hd, hxslot, hlx⟩ ⟨he, hyslot, hly⟩ hf hg⟩

/-- Settles O59: the places pass through every step, the interlock with them; two orders at work then have no conflict. -/
theorem stepKeepsOrdersPlaced : Obligations.StepKeepsOrdersPlaced :=
  ⟨fun _ _ hs h => (Preserves.of_step h).placed hs, fun _ _ hs hi h => (Preserves.of_step h).interlock hs hi,
    fun _ _ _ _ _ hi hne hx hy hlx hly => hi.footprints hne hx hy hlx hly⟩

/-- Settles O60: each of these invariants passes through every step, the generators with the orders' places and the pool's counts with the intake. -/
theorem stepKeepsCountsAndTimers : Obligations.StepKeepsCountsAndTimers :=
  ⟨⟨fun _ _ hs h => (Preserves.of_step h).header hs, fun _ _ hs h => (Preserves.of_step h).counts hs,
      fun _ _ hs h => (Preserves.of_step h).cancels hs, fun _ _ hs h => (Preserves.of_step h).timers hs⟩,
    fun _ _ hs h => (Preserves.of_step h).flight hs, fun _ _ hp hs h => (Preserves.of_step h).generators hp hs,
    fun _ _ hs h => (Preserves.of_step h).stood hs, fun _ _ hs h => (Preserves.of_step h).intake hs,
    fun _ _ hi hs h => (Preserves.of_step h).pool hi hs⟩

theorem cleared_reset : Cleared State.reset := ⟨rfl, rfl, rfl, rfl, rfl, rfl, rfl⟩

/-- Settles O56: after power-on reset there is no order, no request and no domain at work. -/
theorem invariantsHoldAtReset : Obligations.InvariantsHoldAtReset :=
  ⟨reset_wf, refreshLegal_reset, cleared_reset.flight, cleared_reset.placed, cleared_reset.header, cleared_reset.counts, cleared_reset.cancels,
    cleared_reset.timers modeTimersLegal_reset, standDownReported_of_phase fun _ hv => (nomatch hv), cleared_reset.generators,
    cleared_reset.interlock, cleared_reset.intakeLegal, cleared_reset.poolAgrees⟩

end Sys2Proof.Safety
end

section
/-! PROOFS. The queue of commands and the register writes (R28, R29, R180, R182, R184, R189 to R192). -/

namespace Sys2Proof.Safety

open Sys2Proof.Machine

/-- Settles O1: by the queue of commands. -/
theorem stepRunsTheFrontCommand : Obligations.StepRunsTheFrontCommand :=
  ⟨fun c rest s h => by rw [step, h], fun s h => by rw [step, h]⟩

/-! ## Header updates asked for (R16) -/

theorem headerAsked_requestHeaderUpdate (s : State) : HeaderAsked (requestHeaderUpdate s) := by
  intro hlive
  unfold requestHeaderUpdate at hlive ⊢
  split
  · rfl
  · rename_i hask
    rw [if_neg hask] at hlive
    simpa [hlive] using hask

theorem mem_requestHeaderUpdate {s : State} {r : Request} (h : r ∈ s.channel.queue) : r ∈ (requestHeaderUpdate s).channel.queue := by
  unfold requestHeaderUpdate
  split
  · exact List.mem_append_left _ h
  · exact h

/-- A header update marks the pending flag alone. -/
theorem requestHeaderUpdate_reporting (s : State) : (requestHeaderUpdate s).reporting =
    { s.reporting with headerPending := (requestHeaderUpdate s).reporting.headerPending } := by
  unfold requestHeaderUpdate
  split <;> rfl

theorem requestHeaderUpdate_marks (s : State) : (requestHeaderUpdate s).reporting.notifyOwed = s.reporting.notifyOwed
    ∧ (requestHeaderUpdate s).reporting.releaseInProgress = s.reporting.releaseInProgress := by
  unfold requestHeaderUpdate
  split <;> exact ⟨rfl, rfl⟩

theorem HeaderAsked.congr {s t : State} (h : HeaderAsked s) (hengine : t.engine = s.engine)
    (hpending : t.reporting.headerPending = s.reporting.headerPending) : HeaderAsked t := fun hlive => by
  rw [hpending]
  exact h (engineLive_congr hengine ▸ hlive)

/-! ## Written words of CONTROL (R182) -/

/-- A write with ENGINE_RESET 0 is taken as written. -/
theorem asFields_eq {v : Word} (h : v.getLsbD 1 = false) : asFields v = v := by
  apply BitVec.eq_of_getLsbD_eq
  intro i hi
  have hmask : ∀ j : Fin 32, (0xFFFFFFFD#32).getLsbD j.val = !(j == 1) := by decide
  rw [asFields, BitVec.getLsbD_and, hmask ⟨i, hi⟩]
  by_cases h1 : i = 1
  · subst h1
    rw [h]
    rfl
  · rw [beq_eq_false_iff_ne.mpr fun heq => h1 (congrArg Fin.val heq), Bool.not_false, Bool.and_true]

theorem asEnable_eq {v : Word} (hreset : v.getLsbD 1 = false) (henable : v.getLsbD 0 = true) : asEnable v = v := by
  rw [asEnable, asFields_eq hreset]
  apply BitVec.eq_of_getLsbD_eq
  intro i hi
  have hmask : ∀ j : Fin 32, (1#32).getLsbD j.val = (j == 0) := by decide
  rw [BitVec.getLsbD_or, hmask ⟨i, hi⟩]
  by_cases h0 : i = 0
  · subst h0
    rw [henable]
    rfl
  · rw [beq_eq_false_iff_ne.mpr fun heq => h0 (congrArg Fin.val heq), Bool.or_false]

theorem asDisable_eq {v : Word} (hreset : v.getLsbD 1 = false) (henable : v.getLsbD 0 = false) : asDisable v = v := by
  apply BitVec.eq_of_getLsbD_eq
  intro i hi
  have hmask : ∀ j : Fin 32, (0xFFFFFFFC#32).getLsbD j.val = !(j == 0 || j == 1) := by decide
  rw [asDisable, BitVec.getLsbD_and, hmask ⟨i, hi⟩]
  by_cases h0 : i = 0
  · subst h0
    rw [henable]
    rfl
  · by_cases h1 : i = 1
    · subst h1
      rw [hreset]
      rfl
    · rw [beq_eq_false_iff_ne.mpr fun heq => h0 (congrArg Fin.val heq), beq_eq_false_iff_ne.mpr fun heq => h1 (congrArg Fin.val heq),
        Bool.or_false, Bool.not_false, Bool.and_true]

/-- The three fields of CONTROL take the written values, ENABLE too; the timers follow (R28, R174). -/
def fieldsWritten (v : Word) (s : State) : State :=
  { s with
    port := writtenFields v s.port
    intake := { s.intake with
      pollTimer := if v.extractLsb' 4 2 ≠ s.port.poll ∧ s.intake.state = .watch then pollIntervalUs (v.extractLsb' 4 2) else s.intake.pollTimer }
    arrayMode := { s.arrayMode with
      idleTimer := if v.extractLsb' 8 3 ≠ s.port.idleSleep ∧ s.arrayMode.mode = .run ∧ busy s = false then
        idleIntervalUs (v.extractLsb' 8 3) else s.arrayMode.idleTimer } }

theorem pollChanged_written (v : Word) (s : State) : pollChanged s.port.poll { s with port := writtenFields v s.port } =
    { s with
      port := writtenFields v s.port
      intake := { s.intake with
        pollTimer := if v.extractLsb' 4 2 ≠ s.port.poll ∧ s.intake.state = .watch then pollIntervalUs (v.extractLsb' 4 2)
          else s.intake.pollTimer } } := by
  have hpoll : (writtenFields v s.port).poll = v.extractLsb' 4 2 := rfl
  unfold pollChanged
  dsimp only
  rw [hpoll]
  split <;> rfl

/-- A changed IDLE_SLEEP code starts or stops the idle timer while the array is in RUN and not busy. -/
theorem idleCodeChanged_eq (before : BitVec 3) (s : State) : idleCodeChanged before s =
    { s with arrayMode := { s.arrayMode with
      idleTimer := if s.port.idleSleep ≠ before ∧ s.arrayMode.mode = .run ∧ busy s = false then idleIntervalUs s.port.idleSleep
        else s.arrayMode.idleTimer } } := by
  unfold idleCodeChanged idleRestart
  by_cases h : s.port.idleSleep ≠ before ∧ s.arrayMode.mode = .run ∧ busy s = false
  · obtain ⟨hcode, hmode, hbusy⟩ := id h
    rw [if_pos hcode, if_pos (by simp [hmode, hbusy]), if_pos h]
  · rw [if_neg h]
    split
    · rename_i hcode
      rw [if_neg (by simpa [hcode] using h)]
    · rfl

theorem fieldsWritten_eq (v : Word) (s : State) :
    idleCodeChanged s.port.idleSleep (pollChanged s.port.poll { s with port := writtenFields v s.port }) = fieldsWritten v s := by
  rw [pollChanged_written, idleCodeChanged_eq]
  rfl

theorem writeControl_eq {v : Word} {s : State} (hheld : s.port.resetHeld = false) (hreset : v.getLsbD 1 = false) :
    writeControl v s = issueAccess (enableFollow s.port.enable (fieldsWritten v s)) := by
  have hcontrol : controlReset v = false := hreset
  simp only [writeControl, hheld, hcontrol, Bool.false_eq_true, if_false, fieldsWritten_eq]

theorem writeControl_same {v : Word} {s : State} (hheld : s.port.resetHeld = false) (hreset : v.getLsbD 1 = false)
    (henable : v.getLsbD 0 = s.port.enable) : writeControl v s = issueAccess (fieldsWritten v s) := by
  have hsame : (fieldsWritten v s).port.enable = s.port.enable := henable
  rw [writeControl_eq hheld hreset, enableFollow, if_neg (by simp [hsame])]

theorem writeControl_changed {v : Word} {s : State} (hheld : s.port.resetHeld = false) (hreset : v.getLsbD 1 = false)
    (henable : s.port.enable ≠ v.getLsbD 0) : writeControl v s = issueAccess (enableChanged (v.getLsbD 0) (fieldsWritten v s)) := by
  have hnew : (fieldsWritten v s).port.enable = v.getLsbD 0 := rfl
  rw [writeControl_eq hheld hreset, enableFollow, if_pos (by rw [hnew]; exact Ne.symm henable), hnew]

theorem exec_engineEnable {v : Word} {s : State} (hreset : v.getLsbD 1 = false) (henable : v.getLsbD 0 = true) :
    exec (.engineEnable v) s = .next (writeControl v s) := by
  have hexec : exec (.engineEnable v) s = .next (writeControl (asEnable v) s) := rfl
  rw [hexec, asEnable_eq hreset henable]

theorem exec_engineDisable {v : Word} {s : State} (hreset : v.getLsbD 1 = false) (henable : v.getLsbD 0 = false) :
    exec (.engineDisable v) s = .next (writeControl v s) := by
  have hexec : exec (.engineDisable v) s = .next (writeControl (asDisable v) s) := rfl
  rw [hexec, asDisable_eq hreset henable]

/-- POLL_SET, IDLE_SLEEP_SET and RESPONSE_SET write the word as it stands. -/
theorem exec_fieldSet {v : Word} {c : Instr} (s : State) (hreset : v.getLsbD 1 = false) (hc : c = .pollSet v ∨ c = .idleSleepSet v ∨ c = .responseSet v) :
    exec c s = .next (writeControl v s) := by
  have hfields : exec c s = .next (writeControl (asFields v) s) := by
    rcases hc with rfl | rfl | rfl <;> rfl
  rw [hfields, asFields_eq hreset]

theorem fieldsWritten_same {v : Word} {s : State} (henable : v.getLsbD 0 = s.port.enable) :
    (fieldsWritten v s).port = { s.port with poll := v.extractLsb' 4 2, idleSleep := v.extractLsb' 8 3, response := v.extractLsb' 12 3 } := by
  have hcontrol : controlEnable v = s.port.enable := henable
  simp only [fieldsWritten, writtenFields, hcontrol]

/-- Settles O7: the write leaves ENABLE, so the fields and the timers are all it moves before the arbiter. -/
theorem controlFieldsTakeWrittenValues : Obligations.ControlFieldsTakeWrittenValues := by
  refine ⟨by decide, fun s v c hheld hreset henable hc => ?_⟩
  have hwrite : exec c s = .next (writeControl v s) := by
    rcases hc with hc | hc | hc | ⟨rfl, hon⟩ | ⟨rfl, hoff⟩
    · exact exec_fieldSet s hreset (.inl hc)
    · exact exec_fieldSet s hreset (.inr (.inl hc))
    · exact exec_fieldSet s hreset (.inr (.inr hc))
    · exact exec_engineEnable hreset (henable.trans hon)
    · exact exec_engineDisable hreset (henable.trans hoff)
  rw [hwrite, writeControl_same hheld hreset henable, ← fieldsWritten_same henable]
  rfl

/-! ## ENABLE changes (R189 to R192) -/

/-- The arbiter, with a start read alone in the queue of a STARTING engine, issues it. -/
theorem issueAccess_startRead {s : State} (hheld : s.port.resetHeld = false) (hstarting : s.engine.state = .starting)
    (hqueue : s.channel.queue = [.startRead]) (hout : s.channel.outstanding = none) : issueAccess s = issueRequest .startRead s := by
  have hpick : pickRequest (s.channel.queue.filter (mayIssue s.engine.state)) = some .startRead := by
    rw [hqueue, hstarting]
    rfl
  simp only [issueAccess, hout, hheld, hpick, Option.isSome_none, Bool.or_self, Bool.false_eq_true, if_false]

/-- Settles O8: the start read is the one request of the queue and issues at once. -/
theorem enableStartsTheEngine : Obligations.EnableStartsTheEngine := by
  intro s v hheld hreset hon hoff hdisabled hqueue hout
  have hstart : enableChanged (v.getLsbD 0) (fieldsWritten v s) = startEngine (fieldsWritten v s) := by
    have hstate : (fieldsWritten v s).engine.state = .disabled := hdisabled
    simp only [enableChanged, hstate, hon]
  have hissue : issueAccess (startEngine (fieldsWritten v s)) = issueRequest .startRead (startEngine (fieldsWritten v s)) :=
    issueAccess_startRead hheld rfl (by simp [startEngine, placeRequest, fieldsWritten, hqueue]) hout
  refine ⟨_, exec_engineEnable hreset hon, ?_⟩
  rw [writeControl_changed hheld hreset (by simp [hon, hoff]), hstart, hissue]
  refine ⟨rfl, ?_, ?_, rfl, ⟨rfl, rfl, rfl, rfl, rfl⟩, rfl, ⟨rfl, rfl, rfl⟩, ⟨rfl, rfl, rfl, rfl, rfl⟩, rfl, rfl⟩
  · have hcontrol : controlEnable v = true := hon
    simp [issueRequest, issueEffect, fieldsWritten, writtenFields, hcontrol]
  · simp only [issueRequest, issueEffect, startEngine, placeRequest, fieldsWritten, hqueue, writtenFields, responseLimitUs]
    rfl

/-- What the written fields leave: the walk, the orders and the array side. -/
theorem fieldsWritten_leaves (v : Word) (s : State) : SameWalk s (fieldsWritten v s) ∧ SameOrders s (fieldsWritten v s)
    ∧ SameArraySide s (fieldsWritten v s) := ⟨⟨rfl, rfl, rfl, rfl, rfl⟩, ⟨rfl, rfl, rfl⟩, ⟨rfl, rfl, rfl, rfl, rfl⟩⟩

/-- In STARTING and HALTED an ENABLE change is no event for the engine. -/
theorem enableChanged_of_busy {s : State} (h : s.engine.state = .starting ∨ s.engine.state = .halted) (on : Bool) : enableChanged on s = s := by
  unfold enableChanged
  rcases h with h | h <;> simp [h]

theorem enableFollow_of_busy {s : State} (h : s.engine.state = .starting ∨ s.engine.state = .halted) (before : Bool) : enableFollow before s = s := by
  rw [enableFollow, enableChanged_of_busy h, ite_self]

/-- Entering WATCH without nudge-pending: the intake watches and asks for a header update. -/
theorem watches_enterWatch {s : State} (h : s.intake.nudgePending = false) : Watches (enterWatch s) := by
  have heq : enterWatch s = requestHeaderUpdate
      { s with intake := { s.intake with state := .watch, readStep := none, pollTimer := pollIntervalUs s.port.poll } } := by
    simp [enterWatch, h]
  rw [heq]
  exact ⟨by simp, by simp, by simp, headerAsked_requestHeaderUpdate _⟩

/-- The fields of the intake's walk that no read or wait moves. -/
theorem enterWatch_intake (s : State) : SameWalk s (enterWatch s) ∧ (enterWatch s).intake.target = s.intake.target
    ∧ (enterWatch s).intake.candidate = s.intake.candidate ∧ (enterWatch s).intake.nudgePending = s.intake.nudgePending
    ∧ (enterWatch s).intake.faultReason = s.intake.faultReason ∧ (enterWatch s).intake.readAbandoned = s.intake.readAbandoned := by
  unfold enterWatch
  dsimp only
  split <;> simp [SameWalk, queueRead]

/-- Settles O9: a change in STARTING or HALTED is no event; from DRAINING the engine runs on, and the intake watches unless its read is still out. -/
theorem enableResumesOrIsRecorded : Obligations.EnableResumesOrIsRecorded := by
  refine ⟨fun s v c hheld hreset hstate hc => ?_, fun s v hheld hreset hon hoff hdraining hnudge => ?_⟩
  · have hwrite : exec c s = .next (writeControl v s) := by
      rcases hc with ⟨rfl, hon⟩ | ⟨rfl, hoff⟩
      · exact exec_engineEnable hreset hon
      · exact exec_engineDisable hreset hoff
    obtain ⟨hwalk, horders, harray⟩ := fieldsWritten_leaves v s
    refine ⟨fieldsWritten v s, ?_, rfl, rfl, rfl, rfl, rfl, hwalk, horders, harray, rfl, rfl⟩
    rw [hwrite, writeControl_eq hheld hreset, enableFollow_of_busy (s := fieldsWritten v s) hstate]
  · have hresume : enableChanged (v.getLsbD 0) (fieldsWritten v s) = resumeEngine (fieldsWritten v s) := by
      have hstate : (fieldsWritten v s).engine.state = .draining := hdraining
      simp only [enableChanged, hstate, hon]
    have hexec : exec (.engineEnable v) s = .next (issueAccess (resumeEngine (fieldsWritten v s))) := by
      rw [exec_engineEnable hreset hon, writeControl_changed hheld hreset (by simp [hon, hoff]), hresume]
    have henable : (fieldsWritten v s).port.enable = true := hon
    refine ⟨resumeEngine (fieldsWritten v s), hexec, ?_⟩
    unfold resumeEngine
    dsimp only
    cases habandoned : s.intake.readAbandoned with
    | true =>
      rw [if_pos (show (fieldsWritten v s).intake.readAbandoned = true from habandoned)]
      exact ⟨rfl, henable, fun _ => ⟨rfl, habandoned, rfl⟩, nofun, ⟨rfl, rfl, rfl, rfl, rfl⟩, rfl, rfl, ⟨rfl, rfl, rfl⟩, ⟨rfl, rfl, rfl, rfl, rfl⟩,
        rfl, rfl⟩
    | false =>
      rw [if_neg (by simp [fieldsWritten, habandoned])]
      obtain ⟨⟨hexpected, hpage, hentered, hslot, hrecords⟩, htarget, -⟩ :=
        enterWatch_intake { fieldsWritten v s with engine := { (fieldsWritten v s).engine with state := .running } }
      refine ⟨by simp [fieldsWritten], by simpa using henable, nofun, fun _ => watches_enterWatch hnudge,
        ⟨hexpected, hpage, hentered, hslot, hrecords⟩, htarget, by simp [fieldsWritten], ?_, ?_, by simp [fieldsWritten], by simp [fieldsWritten]⟩
      · simp [SameOrders, fieldsWritten]
      · simp [SameArraySide, fieldsWritten]

/-! ## The drain (R191) -/

theorem drained_iff (s : State) : drained s = true ↔
    s.engine.state = .draining ∧ occupied s = 0 ∧ reportHeld s = false ∧ intakeOutstanding s = false := by
  simp [drained, engineIs, and_assoc]

theorem drainedTest_of_drained {s : State} (h : s.engine.state = .draining ∧ occupied s = 0 ∧ reportHeld s = false ∧ intakeOutstanding s = false) :
    drainedTest s = { s with
      engine := { s.engine with state := .disabled }, port := { s.port with drainedPending := true }
      pool := { s.pool with cancelList := [] }, intake := { s.intake with records := [] } } :=
  if_pos ((drained_iff s).mpr h)

theorem drainedTest_of_not {s : State} (h : ¬(s.engine.state = .draining ∧ occupied s = 0 ∧ reportHeld s = false ∧ intakeOutstanding s = false)) :
    drainedTest s = s := if_neg fun hd => h ((drained_iff s).mp hd)

theorem reportHeld_iff (s : State) : reportHeld s = true ↔ ∃ r, Requested s r ∧ r.isReport = true := by
  simp only [reportHeld, Bool.or_eq_true, List.any_eq_true, Option.any_eq_true, Requested]
  constructor
  · rintro (⟨r, hmem, hr⟩ | ⟨a, ha, hr⟩)
    · exact ⟨r, .inl hmem, hr⟩
    · exact ⟨a.request, .inr ⟨a, ha, rfl⟩, hr⟩
  · rintro ⟨r, hmem | ⟨a, ha, rfl⟩, hr⟩
    · exact .inl ⟨r, hmem, hr⟩
    · exact .inr ⟨a, ha, hr⟩

/-- The intake of a disabled engine, before its drain is tested: OFF, or abandoning the read that is out (R26). -/
theorem stopIntake_of_outstanding {s : State} (h : intakeOutstanding s = true) :
    stopIntake s = { s with intake := { s.intake with pollTimer := none, nudgePending := false, readAbandoned := true } } := if_pos h

theorem stopIntake_of_idle {s : State} (h : intakeOutstanding s = false) : stopIntake s =
    intakeOff { s with channel := { s.channel with queue := s.channel.queue.filter fun r => !r.isIntake } } :=
  if_neg (by simp [h])

theorem reportHeld_filter (s : State) : reportHeld { s with channel := { s.channel with queue := s.channel.queue.filter fun r => !r.isIntake } }
    = reportHeld s := by
  have hany : (s.channel.queue.filter fun r => !r.isIntake).any Request.isReport = s.channel.queue.any Request.isReport := by
    rw [List.any_filter]
    congr 1
    funext r
    cases r <;> rfl
  simp only [reportHeld, hany]

/-- What the stop of the intake leaves to the drain's three conditions. -/
theorem drain_conditions_stopIntake (s : State) : occupied (stopIntake s) = occupied s ∧ reportHeld (stopIntake s) = reportHeld s
    ∧ intakeOutstanding (stopIntake s) = intakeOutstanding s := by
  refine ⟨by simp [occupied], ?_, by simp [intakeOutstanding]⟩
  cases hout : intakeOutstanding s with
  | true =>
    rw [stopIntake_of_outstanding hout]
    rfl
  | false =>
    rw [stopIntake_of_idle hout]
    exact reportHeld_filter s

/-- Settles O10: the intake stops, then the drain is tested, which the stop does not touch. -/
theorem disableDrainsTheEngine : Obligations.DisableDrainsTheEngine := by
  refine ⟨fun s v hheld hreset hoff hon hrunning => ?_, fun s hdraining hocc hreport hout => ?_, fun s h => ?_, fun s => ⟨rfl, occupied_eq s, reportHeld_iff s, ?_,
    engineLive_iff s⟩⟩
  · have hdisable : enableChanged (v.getLsbD 0) (fieldsWritten v s) = disableEngine (fieldsWritten v s) := by
      have hstate : (fieldsWritten v s).engine.state = .running := hrunning
      simp only [enableChanged, hstate, hoff]
    have hexec : exec (.engineDisable v) s = .next (issueAccess (disableEngine (fieldsWritten v s))) := by
      rw [exec_engineDisable hreset hoff, writeControl_changed hheld hreset (by rw [hon, hoff]; decide), hdisable]
    obtain ⟨d, hd⟩ : ∃ d, d = { fieldsWritten v s with engine := { (fieldsWritten v s).engine with state := .draining } } := ⟨_, rfl⟩
    obtain ⟨x, hx⟩ : ∃ x, x = stopIntake d := ⟨_, rfl⟩
    have hu : disableEngine (fieldsWritten v s) = drainedTest x := by rw [hx, hd]; rfl
    obtain ⟨hocc, hreport, hout⟩ := drain_conditions_stopIntake d
    have hdstate : occupied d = occupied s ∧ reportHeld d = reportHeld s ∧ intakeOutstanding d = intakeOutstanding s := by
      subst hd
      exact ⟨rfl, rfl, rfl⟩
    have hconditions : (x.engine.state = .draining ∧ occupied x = 0 ∧ reportHeld x = false ∧ intakeOutstanding x = false)
        ↔ (occupied s = 0 ∧ reportHeld s = false ∧ intakeOutstanding s = false) := by
      have hengine : x.engine.state = .draining := by simp [hx, hd]
      rw [hx, hocc, hreport, hout, hdstate.1, hdstate.2.1, hdstate.2.2, ← hx]
      simp [hengine]
    have hintake : x.intake.expected = s.intake.expected ∧ x.intake.target = s.intake.target ∧ x.intake.faultReason = s.intake.faultReason
        ∧ SameWalk s x ∧ (intakeOutstanding s = true → x.intake.state = s.intake.state ∧ x.intake.readAbandoned = true ∧ x.intake.pollTimer = none
          ∧ x.intake.nudgePending = false ∧ x.channel = s.channel)
        ∧ (intakeOutstanding s = false → Off x ∧ x.channel.queue = s.channel.queue.filter fun r => !r.isIntake) := by
      subst hx hd
      cases hs : intakeOutstanding s with
      | true =>
        rw [stopIntake_of_outstanding (hdstate.2.2.trans hs)]
        exact ⟨rfl, rfl, rfl, ⟨rfl, rfl, rfl, rfl, rfl⟩, fun _ => ⟨rfl, rfl, rfl, rfl, rfl⟩, nofun⟩
      | false =>
        rw [stopIntake_of_idle (hdstate.2.2.trans hs)]
        exact ⟨rfl, rfl, rfl, ⟨rfl, rfl, rfl, rfl, rfl⟩, nofun, fun _ => ⟨⟨rfl, rfl, rfl, rfl⟩, rfl⟩⟩
    have hrest : x.port.enable = false ∧ x.port.drainedPending = s.port.drainedPending ∧ x.engine = { s.engine with state := .draining }
        ∧ x.pool = s.pool ∧ x.table = s.table ∧ x.strokes = s.strokes ∧ SameArraySide s x ∧ x.arrayMode.mode = s.arrayMode.mode
        ∧ x.reporting = s.reporting ∧ x.pending = s.pending := by
      subst hx hd
      have henable : controlEnable v = false := hoff
      simp [fieldsWritten, writtenFields, SameArraySide, henable]
    obtain ⟨hexpected, htarget, hfault, hwalk, hreading, hoffState⟩ := hintake
    obtain ⟨henable, hpending, hengine, hpool, htable, hstrokes, harray, hmode, hreporting, hcommands⟩ := hrest
    refine ⟨drainedTest x, by rw [hexec, hu], ?_⟩
    by_cases hdone : occupied s = 0 ∧ reportHeld s = false ∧ intakeOutstanding s = false
    · rw [drainedTest_of_drained (hconditions.mpr hdone)]
      refine ⟨henable, by rw [hengine], fun hs => hreading hs, fun hs => hoffState hs, fun _ => ⟨rfl, rfl, rfl, rfl⟩, fun hnot => absurd hdone hnot,
        hexpected, htarget, hfault, by rw [hpool], htable, hstrokes, harray, hmode, hreporting, hcommands⟩
    · rw [drainedTest_of_not fun h => hdone (hconditions.mp h)]
      exact ⟨henable, by rw [hengine], hreading, hoffState, fun h => absurd h hdone, fun _ => ⟨by rw [hengine], hpending, hpool, hwalk⟩,
        hexpected, htarget, hfault, by rw [hpool], htable, hstrokes, harray, hmode, hreporting, hcommands⟩
  · exact congrArg Host.Outcome.next (drainedTest_of_drained ⟨hdraining, hocc, hreport, hout⟩)
  · refine congrArg Host.Outcome.next (drainedTest_of_not ?_)
    rintro ⟨hdraining, hocc, hreport, hout⟩
    simp [hdraining, hocc, hreport, hout] at h
  · rw [intakeOutstanding, Option.any_eq_true]

end Sys2Proof.Safety
end

section
/-! PROOFS. The register window as reads see it (R180, R181, R183, R184) and the registers beside CONTROL. -/

namespace Sys2Proof.Safety

open Sys2Proof.Machine

/-! ## Words made of fields -/

/-- A field of a word is the digits of its number. -/
theorem extractLsb'_ofNat_toNat (n start len : Nat) :
    ((BitVec.ofNat 32 n).extractLsb' start len).toNat = n % 4294967296 / 2 ^ start % 2 ^ len := by
  rw [BitVec.extractLsb'_toNat, BitVec.toNat_ofNat, Nat.shiftRight_eq_div_pow]

theorem getLsbD_ofNat_eq (n i : Nat) : (BitVec.ofNat 32 n).getLsbD i = decide (n % 4294967296 / 2 ^ i % 2 = 1) := by
  rw [BitVec.getLsbD, BitVec.toNat_ofNat, Nat.testBit_eq_decide_div_mod_eq]

theorem bit_eq (b : Bool) (n : Nat) : bit b n = b.toNat * 2 ^ n := by cases b <;> simp [bit]

/-- A one-bit field reads its flag. -/
theorem getLsbD_of_digit {n i : Nat} {b : Bool} (h : n % 4294967296 / 2 ^ i % 2 = b.toNat) :
    (BitVec.ofNat 32 n).getLsbD i = b := by
  rw [getLsbD_ofNat_eq, h]
  cases b <;> rfl

theorem extractLsb'_of_digits {n start len : Nat} {x : BitVec len} (h : n % 4294967296 / 2 ^ start % 2 ^ len = x.toNat) :
    (BitVec.ofNat 32 n).extractLsb' start len = x :=
  BitVec.eq_of_toNat_eq ((extractLsb'_ofNat_toNat n start len).trans h)

/-- Two bytes side by side. -/
theorem toNat_two_bytes (x y : BitVec 8) : (x.setWidth 32 ||| (y.setWidth 32 <<< 8)).toNat = x.toNat + 256 * y.toNat := by
  have hx := x.isLt
  have hy := y.isLt
  have hlow : x.toNat % 2 ^ 32 = x.toNat := Nat.mod_eq_of_lt (by omega)
  have hhigh : y.toNat % 2 ^ 32 = y.toNat := Nat.mod_eq_of_lt (by omega)
  have hshift : y.toNat <<< 8 % 2 ^ 32 = 2 ^ 8 * y.toNat := by
    rw [Nat.shiftLeft_eq, Nat.mul_comm]
    exact Nat.mod_eq_of_lt (by omega)
  rw [BitVec.toNat_or, BitVec.toNat_shiftLeft, BitVec.toNat_setWidth, BitVec.toNat_setWidth, hlow, hhigh, hshift, Nat.or_comm,
    ← Nat.two_pow_add_eq_or_of_lt hx]
  omega

/-! ## Reads -/

theorem readRegister_word (s : State) (o : BitVec 5) : readRegister s o .word = if o.toNat % 4 = 0 then windowWord s (o.toNat / 4) else 0 := rfl

theorem windowWord_of_released {s : State} (h : s.port.resetHeld = false) (n : Nat) : windowWord s n = heldWord s n := by simp [windowWord, h]

theorem windowWord_of_held {s : State} (h : s.port.resetHeld = true) (n : Nat) : windowWord s n = resetWord n := by simp [windowWord, h]

/-- A word at an aligned offset, by its number in the window. -/
theorem readRegister_heldWord {s : State} (h : s.port.resetHeld = false) {o : BitVec 5} {n : Nat} (ho : o.toNat = 4 * n) :
    readRegister s o .word = heldWord s n := by
  rw [readRegister_word, if_pos (by omega), windowWord_of_released h]
  congr 1
  omega

/-- The reset values read 0x3220 at CONTROL and 0 elsewhere. -/
theorem readRegister_reset {s : State} (hword : ∀ n, windowWord s n = resetWord n) :
    readRegister s 0x00#5 .word = 0x3220#32 ∧ ∀ o : BitVec 5, o ≠ 0 → readRegister s o .word = 0 := by
  refine ⟨(hword 0).trans rfl, fun o ho => ?_⟩
  rw [readRegister_word]
  split
  · have hne : o.toNat ≠ 0 := fun h => ho (BitVec.eq_of_toNat_eq h)
    rw [hword, resetWord, if_neg (by omega)]
  · rfl

/-- The past-the-end byte reads 0. -/
theorem windowWord_past (s : State) : windowWord s 8 = 0 := by
  unfold windowWord
  split <;> rfl

theorem aligned_offset : ∀ o : BitVec 5, (o &&& 0x1C#5).toNat % 4 = 0 ∧ (o &&& 0x1C#5).toNat / 4 = o.toNat / 4 := by decide

theorem readRegister_byte (s : State) (o : BitVec 5) : readRegister s o .byte =
    ((readRegister s (o &&& 0x1C#5) .word).extractLsb' (8 * (o.toNat % 4)) 8).setWidth 32 := by
  obtain ⟨haligned, hword⟩ := aligned_offset o
  rw [readRegister_word, if_pos haligned, hword]
  rfl

theorem readRegister_half (s : State) (o : BitVec 5) : (readRegister s o .half).toNat = (readRegister s o .byte).toNat
    + 256 * (if o.toNat < 31 then (readRegister s (o + 1) .byte).toNat else 0) := by
  have hhalf : readRegister s o .half = (windowByte s o.toNat).setWidth 32 ||| ((windowByte s (o.toNat + 1)).setWidth 32 <<< 8) := rfl
  have hbyte (p : BitVec 5) : (readRegister s p .byte).toNat = (windowByte s p.toNat).toNat := by
    have hlt := (windowByte s p.toNat).isLt
    have hdef : readRegister s p .byte = (windowByte s p.toNat).setWidth 32 := rfl
    rw [hdef, BitVec.toNat_setWidth, Nat.mod_eq_of_lt (by omega)]
  rw [hhalf, toNat_two_bytes, hbyte]
  congr 2
  split
  · have hnext : (o + 1).toNat = o.toNat + 1 := by bv_omega
    rw [hbyte, hnext]
  · have hlast : o.toNat = 31 := by have := o.isLt; omega
    rw [hlast, windowByte, windowWord_past]
    rfl

/-! ## The fields of CONTROL, STATUS and EVENTS -/

/-- The fields of CONTROL at their bits, every other bit 0 (R181). -/
theorem controlWord_fields (p : PortRegs) (c : Word) (hc : c = controlWord p) :
    c.getLsbD 0 = p.enable ∧ c.extractLsb' 1 3 = 0 ∧ c.extractLsb' 4 2 = p.poll ∧ c.extractLsb' 6 2 = 0 ∧ c.extractLsb' 8 3 = p.idleSleep
      ∧ c.getLsbD 11 = false ∧ c.extractLsb' 12 3 = p.response ∧ c.extractLsb' 15 17 = 0 := by
  have hpoll := p.poll.isLt
  have hidle := p.idleSleep.isLt
  have hresponse := p.response.isLt
  subst hc
  have henable := p.enable.toNat_le
  unfold controlWord
  rw [bit_eq]
  refine ⟨getLsbD_of_digit ?_, extractLsb'_of_digits ?_, extractLsb'_of_digits ?_, extractLsb'_of_digits ?_, extractLsb'_of_digits ?_,
    getLsbD_of_digit ?_, extractLsb'_of_digits ?_, extractLsb'_of_digits ?_⟩
  all_goals simp
  all_goals omega

theorem code_bounds (s : State) : EngineState.code s.engine.state < 8 ∧ IntakeState.code s.intake.state < 8
    ∧ IntakeFault.code s.intake.faultReason < 8 ∧ HaltReason.code s.engine.haltReason < 4 ∧ ArrayMode.code s.arrayMode.mode < 4
    ∧ tempClassCode s.refresh.tempClass < 4 := by
  refine ⟨?_, ?_, ?_, ?_, ?_, ?_⟩
  · cases s.engine.state <;> decide
  · cases s.intake.state <;> decide
  · cases s.intake.faultReason <;> decide
  · cases s.engine.haltReason <;> decide
  · cases s.arrayMode.mode <;> decide
  · cases s.refresh.tempClass <;> decide

theorem occupied_le (s : State) : occupied s ≤ 16 := by
  rw [occupied_eq]
  exact List.countP_le_length

/-- The fields of STATUS at their bits with their codes (R181, R183). -/
theorem statusWord_fields (s : State) (w : Word) (hw : w = statusWord s) :
    (w.extractLsb' 0 3).toNat = EngineState.code s.engine.state ∧ w.getLsbD 3 = false
      ∧ (w.extractLsb' 4 3).toNat = IntakeState.code s.intake.state ∧ w.getLsbD 7 = false
      ∧ (w.extractLsb' 8 3).toNat = IntakeFault.code s.intake.faultReason ∧ w.getLsbD 11 = false
      ∧ (w.extractLsb' 12 2).toNat = HaltReason.code s.engine.haltReason ∧ w.extractLsb' 14 2 = 0
      ∧ (w.extractLsb' 16 2).toNat = ArrayMode.code s.arrayMode.mode
      ∧ (w.extractLsb' 18 2).toNat = tempClassCode s.refresh.tempClass
      ∧ (w.extractLsb' 20 5).toNat = occupied s ∧ (w.extractLsb' 25 7).toNat = s.intake.records.length % 128
      ∧ (IntakeLegal s → (w.extractLsb' 25 3).toNat = s.intake.records.length ∧ w.extractLsb' 28 4 = 0) := by
  obtain ⟨hengine, hintake, hfault, hhalt, hmode, htemp⟩ := code_bounds s
  have hocc := occupied_le s
  subst hw
  unfold statusWord
  refine ⟨?_, getLsbD_of_digit ?_, ?_, getLsbD_of_digit ?_, ?_, getLsbD_of_digit ?_, ?_, extractLsb'_of_digits ?_, ?_, ?_, ?_, ?_, fun h => ?_⟩
  case refine_13 =>
    obtain ⟨-, -, -, -, -, hrecords, -⟩ := h
    refine ⟨?_, extractLsb'_of_digits ?_⟩
    · rw [extractLsb'_ofNat_toNat]
      omega
    · simp
      omega
  all_goals try rw [extractLsb'_ofNat_toNat]
  all_goals simp
  all_goals omega

/-- The bits of EVENTS (R181). -/
theorem eventsWord_fields (p : PortRegs) (e : Word) (he : e = eventsWord p) :
    e.getLsbD 0 = p.notifyPending ∧ e.getLsbD 1 = p.alertPending ∧ e.getLsbD 2 = p.faultPending ∧ e.getLsbD 3 = p.drainedPending
      ∧ e.extractLsb' 4 4 = 0 ∧ e.getLsbD 8 = p.notifyEnable ∧ e.getLsbD 9 = p.alertEnable ∧ e.getLsbD 10 = p.faultEnable
      ∧ e.getLsbD 11 = p.drainedEnable ∧ e.extractLsb' 12 20 = 0 := by
  subst he
  have hbit (b : Bool) : b.toNat ≤ 1 := b.toNat_le
  have hn := hbit p.notifyPending
  have ha := hbit p.alertPending
  have hf := hbit p.faultPending
  have hd := hbit p.drainedPending
  have hne := hbit p.notifyEnable
  have hae := hbit p.alertEnable
  have hfe := hbit p.faultEnable
  have hde := hbit p.drainedEnable
  unfold eventsWord
  simp only [bit_eq]
  refine ⟨getLsbD_of_digit ?_, getLsbD_of_digit ?_, getLsbD_of_digit ?_, getLsbD_of_digit ?_, extractLsb'_of_digits ?_, getLsbD_of_digit ?_,
    getLsbD_of_digit ?_, getLsbD_of_digit ?_, getLsbD_of_digit ?_, extractLsb'_of_digits ?_⟩
  all_goals simp
  all_goals omega

/-! ## RESET_N held (R180, R194) -/

/-- While RESET_N is held the commands that write a register change nothing. -/
theorem exec_write_held {s : State} (h : s.port.resetHeld = true) (v : Word) {c : Instr} (hc : c ∈ [Instr.engineReset v, .engineEnable v,
    .engineDisable v, .pollSet v, .idleSleepSet v, .responseSet v, .exbaseWrite v, .nudge v, .cancel v, .eventsWrite v]) : exec c s = .next s := by
  have hcontrol (w : Word) : writeControl w s = s := if_pos h
  simp only [List.mem_cons, List.not_mem_nil, or_false] at hc
  rcases hc with rfl | rfl | rfl | rfl | rfl | rfl | rfl | rfl | rfl | rfl
  case inl | inr.inl | inr.inr.inl | inr.inr.inr.inl | inr.inr.inr.inr.inl | inr.inr.inr.inr.inr.inl => exact congrArg Host.Outcome.next (hcontrol _)
  case inr.inr.inr.inr.inr.inr.inl => exact congrArg Host.Outcome.next (if_pos (by simp [h]))
  case inr.inr.inr.inr.inr.inr.inr.inl => exact congrArg Host.Outcome.next (if_pos (by simp [h]))
  all_goals exact congrArg Host.Outcome.next (if_pos h)

theorem issueAccess_held {s : State} (h : s.port.resetHeld = true) : issueAccess s = s := if_pos (by simp [h])

/-- Settles O6: the window answers the reset values while RESET_N is held, and each field at its bits once it is released. -/
theorem heldWindowAnswersReset : Obligations.HeldWindowAnswersReset := by
  refine ⟨fun s => rfl, fun s h => ?_, fun s c w e hheld hc hw he => ?_, fun s o => ⟨fun ho => ?_, readRegister_byte s o, readRegister_half s o⟩,
    by decide⟩
  · obtain ⟨hcontrol, hother⟩ := readRegister_reset fun n => windowWord_of_held h n
    exact ⟨hcontrol, hother, congrArg Host.Outcome.next (if_pos h), congrArg Host.Outcome.next (issueAccess_held h),
      fun v c hc => exec_write_held h v hc⟩
  · rw [readRegister_heldWord hheld (n := 0) rfl] at hc
    rw [readRegister_heldWord hheld (n := 4) rfl] at hw
    rw [readRegister_heldWord hheld (n := 5) rfl] at he
    refine ⟨controlWord_fields s.port c hc, readRegister_heldWord hheld (n := 1) rfl, readRegister_heldWord hheld (n := 2) rfl,
      readRegister_heldWord hheld (n := 6) rfl, readRegister_heldWord hheld (n := 7) rfl, ?_, statusWord_fields s w hw, eventsWord_fields s.port e he⟩
    have hcancel : heldWord s 3 = BitVec.ofNat 32 (CancelStatus.code s.port.cancelStatus) := rfl
    rw [readRegister_heldWord hheld (n := 3) rfl, hcancel]
    cases s.port.cancelStatus <;> rfl
  · rw [readRegister_word, if_neg ho]

/-! ## EXBASE and EVENTS (R182, R184) -/

/-- Bits 31:6 with six zeros below them. -/
theorem high_bits_append (v : Word) : v.extractLsb' 6 26 ++ (0 : BitVec 6) = v &&& 0xFFFFFFC0#32 := by
  apply BitVec.eq_of_getLsbD_eq
  intro i hi
  have hmask : ∀ j : Fin 32, (0xFFFFFFC0#32).getLsbD j.val = decide (6 ≤ j.val) := by decide
  rw [BitVec.getLsbD_append, BitVec.getLsbD_and, hmask ⟨i, hi⟩]
  by_cases hlow : i < 6
  · rw [if_pos hlow, decide_eq_false (Nat.not_le.mpr hlow), Bool.and_false]
    exact BitVec.getLsbD_zero
  · have hplace : 6 + (i - 6) = i := by omega
    rw [if_neg hlow, decide_eq_true (Nat.not_lt.mp hlow), Bool.and_true, BitVec.getLsbD_extractLsb', hplace, decide_eq_true (by omega), Bool.true_and]

/-- Settles O11: the writes set one register each. -/
theorem exbaseAndEventsWrites : Obligations.ExbaseAndEventsWrites := by
  refine ⟨fun s v hheld => ⟨fun hstate => ?_, fun hstate => ?_⟩, fun s => ?_, fun s v hheld => ?_⟩
  · exact congrArg Host.Outcome.next (if_pos (by simp [engineIs, hstate]))
  · refine ⟨_, congrArg Host.Outcome.next (if_neg (by simp [engineIs, hstate, hheld])), ?_, high_bits_append v, rfl⟩
    rw [readRegister_heldWord (by exact hheld) (n := 1) rfl]
    exact high_bits_append v
  · simp [intAsserted, or_assoc]
  · have hbit (b p : Bool) : (p && !b) = if b then false else p := by cases b <;> simp
    refine congrArg Host.Outcome.next ((if_neg (by simp [hheld])).trans ?_)
    simp only [eventsWritten, hbit]

/-! ## Writes and responses without effect (R180, R187) -/

/-- Settles O13: a response acts only on the access with its tag. -/
theorem ignoredWritesAndStaleResponses : Obligations.IgnoredWritesAndStaleResponses := by
  refine ⟨fun _ _ _ _ => rfl, fun _ _ => rfl, fun s tag hstale w x e d c hc => ?_⟩
  have hnone (sort : Request → Bool) (f : Access → State → State) : Host.Outcome.next (onResponse tag sort f s) = (.next s : Machine.Outcome) :=
    congrArg Host.Outcome.next (onResponse_stale sort f hstale)
  simp only [List.mem_cons, List.not_mem_nil, or_false] at hc
  rcases hc with rfl | rfl | rfl | rfl | rfl | rfl | rfl | rfl | rfl | rfl | rfl | rfl | rfl | rfl | rfl <;> exact hnone _ _

end Sys2Proof.Safety
end

section
/-! PROOFS. The steps of the Order Intake (chapter 2): what each read, wait and fault does, and what they leave unchanged. -/

namespace Sys2Proof.Safety

open Sys2Proof.Machine

/-! ## What an intake event leaves -/

theorem IntakeOnly.refl (s : State) : IntakeOnly s s := ⟨rfl, ⟨rfl, rfl, rfl⟩, ⟨rfl, rfl, rfl, rfl, rfl⟩, rfl, rfl, rfl, fun _ => id, rfl, rfl⟩

theorem IntakeOnly.trans {s t u : State} (h : IntakeOnly s t) (k : IntakeOnly t u) : IntakeOnly s u := by
  obtain ⟨he, ⟨ho1, ho2, ho3⟩, ⟨ha1, ha2, ha3, ha4, ha5⟩, hm, hc, hp, hq, hn, hr⟩ := h
  obtain ⟨ke, ⟨ko1, ko2, ko3⟩, ⟨ka1, ka2, ka3, ka4, ka5⟩, km, kc, kp, kq, kn, kr⟩ := k
  refine ⟨ke.trans he, ⟨ko1.trans ho1, ko2.trans ho2, ko3.trans ho3⟩,
    ⟨ka1.trans ha1, ka2.trans ha2, ka3.trans ha3, ka4.trans ha4, ka5.trans ha5⟩, km.trans hm, kc.trans hc, ?_, fun r hmem => kq r (hq r hmem),
    kn.trans hn, kr.trans hr⟩
  rw [kp, hp]

theorem SameWalk.refl (s : State) : SameWalk s s := ⟨rfl, rfl, rfl, rfl, rfl⟩

theorem SameWalk.trans {s t u : State} (h : SameWalk s t) (k : SameWalk t u) : SameWalk s u := by
  obtain ⟨h1, h2, h3, h4, h5⟩ := h
  obtain ⟨k1, k2, k3, k4, k5⟩ := k
  exact ⟨k1.trans h1, k2.trans h2, k3.trans h3, k4.trans h4, k5.trans h5⟩

theorem IntakeOnly.of_intake (s : State) (i : Intake) : IntakeOnly s { s with intake := i } :=
  ⟨rfl, ⟨rfl, rfl, rfl⟩, ⟨rfl, rfl, rfl, rfl, rfl⟩, rfl, rfl, rfl, fun _ => id, rfl, rfl⟩

theorem IntakeOnly.after_placeRequest (r : Request) (s : State) : IntakeOnly s (placeRequest r s) :=
  ⟨rfl, ⟨rfl, rfl, rfl⟩, ⟨rfl, rfl, rfl, rfl, rfl⟩, rfl, rfl, rfl, fun _ hmem => List.mem_append_left _ hmem, rfl, rfl⟩

theorem IntakeOnly.after_requestHeaderUpdate (s : State) : IntakeOnly s (requestHeaderUpdate s) :=
  ⟨by simp, by simp [SameOrders], by simp [SameArraySide], by simp, by simp, by simp, fun _ => mem_requestHeaderUpdate,
    (requestHeaderUpdate_marks s).1, by simp⟩

/-- What an event of the intake keeps: all but its channel, reports and intake, and of these the walk, the target and the candidate. -/
structure IntakeStep (s u : State) : Prop where
  only : IntakeOnly s u
  walk : SameWalk s u
  target : u.intake.target = s.intake.target

theorem IntakeStep.trans {s t u : State} (h : IntakeStep s t) (k : IntakeStep t u) : IntakeStep s u :=
  ⟨h.only.trans k.only, h.walk.trans k.walk, k.target.trans h.target⟩

/-- The last operation first: its state is what the first one leaves. -/
theorem IntakeStep.comp {s t u : State} (k : IntakeStep t u) (h : IntakeStep s t) : IntakeStep s u := h.trans k

theorem IntakeStep.after_requestHeaderUpdate (s : State) : IntakeStep s (requestHeaderUpdate s) :=
  ⟨.after_requestHeaderUpdate s, by simp [SameWalk], by simp⟩

/-! ## Reads, watches, stalls and faults -/

theorem reads_queueRead (step : ReadStep) (s : State) : Reads step (queueRead step s) :=
  ⟨rfl, rfl, rfl, List.mem_append_right _ (List.mem_singleton_self _)⟩

theorem intakeStep_queueRead (step : ReadStep) (s : State) : IntakeStep s (queueRead step s) :=
  ⟨(IntakeOnly.of_intake s _).trans (.after_placeRequest _ _), ⟨rfl, rfl, rfl, rfl, rfl⟩, rfl⟩

theorem enterWatch_of_nudge {s : State} (h : s.intake.nudgePending = true) : enterWatch s = queueRead .tally (requestHeaderUpdate
    { s with intake := { s.intake with state := .watch, readStep := none, pollTimer := pollIntervalUs s.port.poll } }) := by
  simp [enterWatch, h]

theorem intakeStep_enterWatch (s : State) : IntakeStep s (enterWatch s) := by
  have hwatch : IntakeStep s (requestHeaderUpdate
      { s with intake := { s.intake with state := .watch, readStep := none, pollTimer := pollIntervalUs s.port.poll } }) :=
    .comp (.after_requestHeaderUpdate _) ⟨.of_intake s _, ⟨rfl, rfl, rfl, rfl, rfl⟩, rfl⟩
  unfold enterWatch
  dsimp only
  split
  · exact hwatch.trans (intakeStep_queueRead .tally _)
  · exact hwatch

/-- With nudge-pending the intake goes on to a tally read; the header update of WATCH is asked for before it. -/
theorem reads_enterWatch {s : State} (h : s.intake.nudgePending = true) : Reads .tally (enterWatch s) ∧ HeaderAsked (enterWatch s) := by
  have hasked := headerAsked_requestHeaderUpdate
    { s with intake := { s.intake with state := .watch, readStep := none, pollTimer := pollIntervalUs s.port.poll } }
  rw [enterWatch_of_nudge h]
  exact ⟨reads_queueRead .tally _, hasked.congr rfl rfl⟩

theorem stalls_enterStall (st : IntakeState) (s : State) : Stalls st (enterStall st s) :=
  ⟨by simp [enterStall], by simp [enterStall], by simp [enterStall], headerAsked_requestHeaderUpdate _⟩

theorem intakeStep_enterStall (st : IntakeState) (s : State) : IntakeStep s (enterStall st s) :=
  .comp (.after_requestHeaderUpdate _) ⟨.of_intake s _, ⟨rfl, rfl, rfl, rfl, rfl⟩, rfl⟩

theorem breaks_breakIntake (reason : IntakeFault) (step : ReadStep) (s : State) : Breaks reason step (breakIntake reason step s) :=
  ⟨by simp [breakIntake], by simp [breakIntake], by simp [breakIntake], by simp [breakIntake], by simp [breakIntake, setFault],
    headerAsked_requestHeaderUpdate _⟩

theorem intakeStep_breakIntake (reason : IntakeFault) (step : ReadStep) (s : State) : IntakeStep s (breakIntake reason step s) := by
  have hfault : IntakeStep s (setFault { s with intake :=
      { s.intake with state := .broken, readStep := none, pollTimer := none, faultReason := reason, failedStep := some step } }) :=
    ⟨⟨rfl, ⟨rfl, rfl, rfl⟩, ⟨rfl, rfl, rfl, rfl, rfl⟩, rfl, rfl, rfl, fun _ => id, rfl, rfl⟩, ⟨rfl, rfl, rfl, rfl, rfl⟩, rfl⟩
  exact hfault.trans (.after_requestHeaderUpdate _)

theorem breakIntake_candidate (reason : IntakeFault) (step : ReadStep) (s : State) :
    (breakIntake reason step s).intake.candidate = s.intake.candidate := by simp [breakIntake]

/-! ## The walk (R33 to R37) -/

theorem freeSlot_isSome_iff (s : State) : (freeSlot s).isSome = true ↔ ∃ i, slotOrder s i = none := by
  simp [freeSlot, List.find?_isSome]

theorem checksPool_poolCheck (s : State) : ChecksPool s (poolCheck s) := by
  constructor
  · intro hfree
    rw [poolCheck, if_pos ((freeSlot_isSome_iff s).mpr hfree)]
    exact reads_queueRead .entry s
  · intro hfull
    rw [poolCheck, if_neg fun h => ?_]
    · exact stalls_enterStall .stalledPool s
    · obtain ⟨i, hi⟩ := (freeSlot_isSome_iff s).mp h
      exact hfull i hi

theorem intakeStep_poolCheck (s : State) : IntakeStep s (poolCheck s) := by
  unfold poolCheck
  split
  · exact intakeStep_queueRead .entry s
  · exact intakeStep_enterStall .stalledPool s

theorem intakeStep_goToPage (s : State) : IntakeStep s (goToPage s) := by
  unfold goToPage
  split
  · exact intakeStep_queueRead .next s
  · exact .comp (intakeStep_queueRead .header _) ⟨.of_intake s _, ⟨rfl, rfl, rfl, rfl, rfl⟩, rfl⟩

theorem goToPage_of_entered {s : State} (h : s.intake.pageEntered = true) : Reads .next (goToPage s) := by
  rw [goToPage, if_pos h]
  exact reads_queueRead .next s

theorem goToPage_of_first {s : State} (h : s.intake.pageEntered = false) :
    Reads .header (goToPage s) ∧ (goToPage s).intake.candidate = s.intake.currentPage := by
  rw [goToPage, if_neg (by simp [h])]
  exact ⟨reads_queueRead .header _, rfl⟩

theorem intakeStep_newPageStep (s : State) : IntakeStep s (newPageStep s) := by
  unfold newPageStep
  split
  · exact intakeStep_enterStall .stalledPages s
  · exact intakeStep_goToPage s

theorem intakeStep_beginTake (s : State) : IntakeStep s (beginTake s) := by
  unfold beginTake
  split
  · exact intakeStep_newPageStep s
  · exact intakeStep_poolCheck s

theorem beginTake_eq_newPageStep {s : State} (h : s.intake.pageEntered = false ∨ s.intake.nextSlot = 15) : beginTake s = newPageStep s := by
  rw [beginTake, if_pos]
  rcases h with h | h <;> simp [h, Config.pageSlots]

theorem beginTake_eq_poolCheck {s : State} (hentered : s.intake.pageEntered = true) (hslot : s.intake.nextSlot ≠ 15) : beginTake s = poolCheck s := by
  rw [beginTake, if_neg (by simp [hentered, hslot, Config.pageSlots])]

theorem newPageStep_of_room {s : State} (h : s.intake.records.length < 4) : newPageStep s = goToPage s :=
  if_neg (by simpa [Config.maxRecords] using h)

/-- A take begins with the pool check, or at a new page with the record check (R33, R34). -/
theorem beginsTake_beginTake (s : State) : BeginsTake s (beginTake s) := by
  refine ⟨fun ⟨hentered, hslot⟩ => ?_, fun hpage => ⟨fun hfull => ?_, fun hroom hentered => ?_, fun hroom hfirst => ?_⟩⟩
  · rw [beginTake_eq_poolCheck hentered hslot]
    exact checksPool_poolCheck s
  all_goals rw [beginTake_eq_newPageStep hpage]
  · rw [newPageStep, if_pos (by simpa [Config.maxRecords] using hfull)]
    exact stalls_enterStall .stalledPages s
  · rw [newPageStep_of_room hroom]
    exact goToPage_of_entered hentered
  · rw [newPageStep_of_room hroom]
    exact goToPage_of_first hfirst

/-! ## NUDGE (R29, R46) -/

theorem intakeStep_setNudge (s : State) : IntakeStep s (setNudge s) := ⟨.of_intake s _, ⟨rfl, rfl, rfl, rfl, rfl⟩, rfl⟩

theorem retryIntake_of_step {s : State} {step : ReadStep} (h : s.intake.failedStep = some step) :
    retryIntake s = queueRead step { s with intake := { s.intake with faultReason := .noFault, failedStep := none } } := by
  simp [retryIntake, h]

theorem nudgeIntake_leaves (s : State) : IntakeStep s (nudgeIntake s) ∧ (nudgeIntake s).intake.candidate = s.intake.candidate
    ∧ (nudgeIntake s).port = s.port ∧ (nudgeIntake s).reporting = s.reporting := by
  refine ⟨?_, ?_, by simp, by simp⟩ <;> unfold nudgeIntake <;> cases s.intake.state
  case refine_1.off => exact ⟨.refl s, .refl s, rfl⟩
  case refine_1.watch => exact intakeStep_queueRead .tally s
  case refine_1.broken =>
    unfold retryIntake
    dsimp only
    split
    · exact .comp (intakeStep_queueRead _ _) ⟨.of_intake s _, ⟨rfl, rfl, rfl, rfl, rfl⟩, rfl⟩
    · exact ⟨.refl s, .refl s, rfl⟩
  case refine_2.broken =>
    unfold retryIntake
    dsimp only
    split <;> rfl
  case refine_1.reading | refine_1.stalledPool | refine_1.stalledPages => exact intakeStep_setNudge s
  all_goals rfl

/-- Settles O12: a NUDGE acts by the intake's state alone. -/
theorem nudgeActsByIntakeState : Obligations.NudgeActsByIntakeState := by
  refine fun s v hheld => ⟨fun hstate => congrArg Host.Outcome.next (if_pos (by simp [engineIs, hstate])), fun hrunning => ?_⟩
  obtain ⟨⟨honly, hwalk, htarget⟩, hcandidate, hport, hreporting⟩ := nudgeIntake_leaves s
  refine ⟨nudgeIntake s, congrArg Host.Outcome.next (if_neg (by simp [engineIs, hrunning, hheld])), fun hwatch => ?_, fun hbusy => ?_,
    fun step hbroken hstep => ?_, fun hoff => ?_, honly, hwalk, htarget, hcandidate, hport, hreporting⟩
  · rw [show nudgeIntake s = queueRead .tally s by simp [nudgeIntake, hwatch]]
    exact ⟨reads_queueRead .tally s, rfl⟩
  · rcases hbusy with h | h | h <;> simp [nudgeIntake, h, setNudge]
  · rw [show nudgeIntake s = retryIntake s by simp [nudgeIntake, hbroken], retryIntake_of_step hstep]
    exact ⟨reads_queueRead step _, rfl, rfl⟩
  · simp [nudgeIntake, hoff]

/-! ## Reads that end (R31, R35, R36, R44) -/

theorem drainedTest_of_running {s : State} (h : s.engine.state = .running) : drainedTest s = s :=
  drainedTest_of_not fun hd => by simp [h] at hd

theorem intakeResult_of_live {s : State} (h : s.intake.readAbandoned = false) (f : State → State) : intakeResult f s = f s :=
  if_neg (by simp [h])

theorem intakeResult_of_abandoned {s : State} (h : s.intake.readAbandoned = true) (f : State → State) : intakeResult f s = endAbandonedRead s :=
  if_pos h

theorem isRead_self (step : ReadStep) : Request.isRead step (.intakeRead step) = true := beq_self_eq_true step

theorem readComplete_awaited {s : State} {tag : Nat} {step : ReadStep} (h : Awaits s tag (.intakeRead step)) (f : State → State) :
    readComplete tag step f s = settle (freed s) (drainedTest (intakeResult f (freed s))) := by
  obtain ⟨a, -, -, heq⟩ := onResponse_awaited (fun _ t => drainedTest (intakeResult f t)) h (isRead_self step)
  exact heq

/-- The read of a RUNNING engine is acted on. -/
theorem readComplete_running {s : State} {tag : Nat} {step : ReadStep} (h : Awaits s tag (.intakeRead step)) (hlive : s.intake.readAbandoned = false)
    (hrunning : s.engine.state = .running) {f : State → State} (hf : (f (freed s)).engine = (freed s).engine) :
    readComplete tag step f s = settle (freed s) (f (freed s)) := by
  rw [readComplete_awaited h, intakeResult_of_live (s := freed s) hlive, drainedTest_of_running]
  rw [hf]
  exact hrunning

theorem failResponse_read {s : State} {tag : Nat} {step : ReadStep} (h : Awaits s tag (.intakeRead step)) :
    failResponse tag Request.isStep s = settle (freed s) (intakeReadFails step (freed s)) := by
  obtain ⟨a, -, ha, heq⟩ := onResponse_awaited (fun a => accessFails a.request) h (sort := Request.isStep) rfl
  rw [failResponse, heq, ha]
  rfl

theorem IntakeStep.of_setTarget {s u : State} {p : Word} (h : IntakeStep (setTarget p s) u) : IntakeOnly s u ∧ SameWalk s u ∧ u.intake.target = p :=
  ⟨(IntakeOnly.of_intake s _).trans h.only, h.walk, h.target⟩

/-- What a tally read does by the difference d (R31). -/
theorem tallyDone_zero {p : Word} {s : State} (h : (p - s.intake.expected).toNat = 0) : tallyDone p s = enterWatch (setTarget p s) := if_pos h

theorem tallyDone_ahead {p : Word} {s : State} (hpos : 1 ≤ (p - s.intake.expected).toNat) (hlt : (p - s.intake.expected).toNat < 2147483648) :
    tallyDone p s = beginTake (setTarget p s) := by
  rw [tallyDone, if_neg (by omega), if_pos hlt]

theorem tallyDone_behind {p : Word} {s : State} (h : 2147483648 ≤ (p - s.intake.expected).toNat) : tallyDone p s = breakIntake .tally .tally s := by
  rw [tallyDone, if_neg (by omega), if_neg (by omega)]

theorem tallyDone_leaves (p : Word) (s : State) : IntakeOnly s (tallyDone p s) ∧ SameWalk s (tallyDone p s) := by
  unfold tallyDone
  dsimp only
  split
  · exact ⟨(intakeStep_enterWatch (setTarget p s)).of_setTarget.1, (intakeStep_enterWatch (setTarget p s)).walk⟩
  · split
    · exact ⟨(intakeStep_beginTake (setTarget p s)).of_setTarget.1, (intakeStep_beginTake (setTarget p s)).walk⟩
    · exact ⟨(intakeStep_breakIntake .tally .tally s).only, (intakeStep_breakIntake .tally .tally s).walk⟩

/-- Settles O21: the three cases of d. -/
theorem tallyReadActsOnDifference : Obligations.TallyReadActsOnDifference := by
  intro s tag p hawaits hlive hrunning
  obtain ⟨honly, hwalk⟩ := tallyDone_leaves p (freed s)
  refine ⟨tallyDone p (freed s), congrArg Host.Outcome.next (readComplete_running hawaits hlive hrunning honly.1), honly, hwalk,
    fun hzero => ?_, fun hpos hlt => ?_, fun hbehind => ?_⟩
  · rw [tallyDone_zero (s := freed s) hzero]
    exact ⟨(intakeStep_enterWatch _).of_setTarget.2.2, by simp [setTarget, freed], fun hnudge => watches_enterWatch hnudge,
      fun hnudge => reads_enterWatch hnudge⟩
  · rw [tallyDone_ahead (s := freed s) hpos hlt]
    exact ⟨(intakeStep_beginTake _).of_setTarget.2.2, by simp [setTarget, freed], beginsTake_beginTake (setTarget p (freed s))⟩
  · rw [tallyDone_behind (s := freed s) hbehind]
    exact ⟨(intakeStep_breakIntake _ _ _).target, breaks_breakIntake _ _ _⟩

theorem validPage_iff (n : Word) : validPage n = true ↔ n ≠ 0 ∧ n.toNat % 512 = 0 := by
  have hlow : n.extractLsb' 0 9 = 0#9 ↔ n.toNat % 512 = 0 := by
    rw [← BitVec.toNat_inj, BitVec.extractLsb'_toNat]
    simp
  simp [validPage, hlow]

theorem nextDone_zero {s : State} : nextDone 0 s = breakIntake .noNext .next s := if_pos rfl

theorem nextDone_invalid {n : Word} {s : State} (hn : n ≠ 0) (h : validPage n = false) : nextDone n s = breakIntake .pageMismatch .next s := by
  rw [nextDone, if_neg hn, if_pos (by simp [h])]

theorem nextDone_valid {n : Word} {s : State} (h : validPage n = true) :
    nextDone n s = queueRead .header { s with intake := { s.intake with candidate := n } } := by
  rw [nextDone, if_neg ((validPage_iff n).mp h).1, if_neg (by simp [h])]

theorem intakeStep_nextDone (n : Word) (s : State) : IntakeStep s (nextDone n s) := by
  unfold nextDone
  split
  · exact intakeStep_breakIntake _ _ _
  · split
    · exact intakeStep_breakIntake _ _ _
    · exact .comp (intakeStep_queueRead .header _) ⟨.of_intake s _, ⟨rfl, rfl, rfl, rfl, rfl⟩, rfl⟩

/-- Settles O22: N is 0, no page, or the candidate of the header read. -/
theorem nextReadChecksTheLink : Obligations.NextReadChecksTheLink := by
  intro s tag n hawaits hlive hrunning
  obtain ⟨honly, hwalk, htarget⟩ := intakeStep_nextDone n (freed s)
  refine ⟨nextDone n (freed s), congrArg Host.Outcome.next (readComplete_running hawaits hlive hrunning honly.1), honly, hwalk, htarget,
    fun hzero => ?_, fun hn hoff => ?_, fun hn hvalid => ?_⟩
  · rw [hzero, nextDone_zero]
    exact breaks_breakIntake _ _ _
  · rw [nextDone_invalid hn (Bool.eq_false_iff.mpr fun h => hoff ((validPage_iff n).mp h).2)]
    exact breaks_breakIntake _ _ _
  · rw [nextDone_valid ((validPage_iff n).mpr ⟨hn, hvalid⟩)]
    exact ⟨reads_queueRead .header _, rfl, rfl, rfl⟩

/-! ## The page entered (R36) -/

theorem IntakeOnly.after_releaseTest (s : State) : IntakeOnly s (releaseTest s) := by
  unfold releaseTest
  split
  · exact ⟨rfl, ⟨rfl, rfl, rfl⟩, ⟨rfl, rfl, rfl, rfl, rfl⟩, rfl, rfl, rfl, fun _ hmem => List.mem_append_left _ hmem, rfl, rfl⟩
  · exact .refl s

theorem updateYoungest_append (f : PageRecord → PageRecord) (older : List PageRecord) (p : PageRecord) :
    updateYoungest f (older ++ [p]) = older ++ [f p] := by
  induction older with
  | nil => rfl
  | cons q rest ih =>
    cases rest with
    | nil => rfl
    | cons r rest => exact congrArg (q :: ·) ih

/-- The records once the current page has been left. -/
def leftRecords (i : Intake) : List PageRecord :=
  if i.pageEntered then updateYoungest (fun p => { p with left := true }) i.records else i.records

theorem leavePage_intake (s : State) : (leavePage s).intake = { s.intake with records := leftRecords s.intake } := by
  unfold leavePage leftRecords
  split <;> simp

theorem IntakeOnly.after_leavePage (s : State) : IntakeOnly s (leavePage s) := by
  unfold leavePage
  split
  · exact (IntakeOnly.of_intake s _).trans (.after_releaseTest _)
  · exact .refl s

/-- The intake in the candidate page, its record the youngest. -/
def enteredIntake (i : Intake) : Intake :=
  { i with
    records := leftRecords i ++ [{ serial := i.nextSerial, address := i.candidate, takenCount := 0, finishedCount := 0, left := false }]
    nextSerial := i.nextSerial + 1
    currentPage := i.candidate
    pageEntered := true
    nextSlot := 0 }

theorem enterPage_leavePage_intake (s : State) : (enterPage (leavePage s)).intake = enteredIntake s.intake := by
  simp only [enterPage, leavePage_intake, enteredIntake]

theorem IntakeOnly.after_entered (s : State) : IntakeOnly s (enterPage (leavePage s)) :=
  (IntakeOnly.after_leavePage s).trans (.of_intake _ _)

theorem releaseDue_iff (s : State) {p : PageRecord} {rest : List PageRecord} (h : s.intake.records = p :: rest) : releaseDue s = true ↔
    engineLive s = true ∧ s.reporting.releaseInProgress = false ∧ p.left = true ∧ p.finishedCount = p.takenCount := by
  simp [releaseDue, h, and_assoc]

theorem releaseTest_of_due {s : State} (h : releaseDue s = true) : releaseTest s = { s with
    channel := { s.channel with queue := s.channel.queue ++ [.release] }, reporting := { s.reporting with releaseInProgress := true } } := if_pos h

theorem releaseTest_of_not {s : State} (h : ¬releaseDue s = true) : releaseTest s = s := if_neg h

/-- The oldest record of the pages left qualifies: its release write waits (R19). -/
theorem leavePage_releases {s : State} (hrunning : s.engine.state = .running) (hentered : s.intake.pageEntered = true)
    (hprogress : s.reporting.releaseInProgress = false) {p : PageRecord} {rest : List PageRecord} (hrecords : s.intake.records = p :: rest)
    (hleft : p.left = true ∨ rest = []) (hcount : p.finishedCount = p.takenCount) :
    (leavePage s).reporting.releaseInProgress = true ∧ .release ∈ (leavePage s).channel.queue := by
  obtain ⟨q, tail, hq, hql, hqc⟩ : ∃ q tail, updateYoungest (fun p => { p with left := true }) s.intake.records = q :: tail ∧ q.left = true
      ∧ q.finishedCount = q.takenCount := by
    rw [hrecords]
    cases rest with
    | nil => exact ⟨_, _, rfl, rfl, hcount⟩
    | cons r rest => exact ⟨p, _, rfl, hleft.resolve_right (by simp), hcount⟩
  have hdue : releaseDue { s with intake := { s.intake with records := updateYoungest (fun p => { p with left := true }) s.intake.records } } = true :=
    (releaseDue_iff _ hq).mpr ⟨engineLive_of_running hrunning, hprogress, hql, hqc⟩
  rw [leavePage, if_pos hentered, releaseTest_of_due hdue]
  exact ⟨rfl, List.mem_append_right _ (List.mem_singleton_self _)⟩

theorem firstSeqDone_wrong {f : Word} {s : State} (h : f ≠ s.intake.expected) :
    firstSeqDone f s = breakIntake .pageMismatch (if s.intake.pageEntered then .next else .header) s := if_neg h

theorem firstSeqDone_right {f : Word} {s : State} (h : f = s.intake.expected) : firstSeqDone f s = poolCheck (enterPage (leavePage s)) := if_pos h

theorem slots_enterPage_leavePage (s : State) : (enterPage (leavePage s)).pool = s.pool := (IntakeOnly.after_entered s).2.1.1

theorem ChecksPool.congr {s t u : State} (h : ChecksPool t u) (hpool : t.pool = s.pool) : ChecksPool s u := by
  simpa only [ChecksPool, slotOrder_congr (congrArg Pool.slots hpool)] using h

theorem enterStall_reporting (st : IntakeState) (s : State) :
    (enterStall st s).reporting.releaseInProgress = s.reporting.releaseInProgress := (requestHeaderUpdate_marks _).2

theorem poolCheck_reporting (s : State) : (poolCheck s).reporting.releaseInProgress = s.reporting.releaseInProgress := by
  unfold poolCheck
  split
  · rfl
  · exact enterStall_reporting .stalledPool s

/-- Settles O23: a wrong F breaks the intake; the right one leaves the old page, enters the new one and checks the pool. -/
theorem firstSeqReadEntersThePage : Obligations.FirstSeqReadEntersThePage := by
  intro s tag f hawaits hlive hrunning
  refine ⟨fun hwrong => ?_, fun hright => ?_⟩
  · have hdone : firstSeqDone f (freed s) = breakIntake .pageMismatch (if s.intake.pageEntered then .next else .header) (freed s) :=
      firstSeqDone_wrong (s := freed s) hwrong
    obtain ⟨honly, hwalk, htarget⟩ := intakeStep_breakIntake .pageMismatch (if s.intake.pageEntered then .next else .header) (freed s)
    refine ⟨_, congrArg Host.Outcome.next (readComplete_running hawaits hlive hrunning (by rw [hdone]; exact honly.1)), ?_⟩
    rw [hdone]
    exact ⟨honly, hwalk, htarget, breaks_breakIntake _ _ _⟩
  · have hdone : firstSeqDone f (freed s) = poolCheck (enterPage (leavePage (freed s))) := firstSeqDone_right (s := freed s) hright
    obtain ⟨honly, ⟨hexpected, hpage, hentered, hslot, hrecords⟩, htarget⟩ := intakeStep_poolCheck (enterPage (leavePage (freed s)))
    rw [enterPage_leavePage_intake] at hexpected hpage hentered hslot hrecords htarget
    have hall : IntakeOnly (freed s) (poolCheck (enterPage (leavePage (freed s)))) := (IntakeOnly.after_entered (freed s)).trans honly
    have hport : (enterPage (leavePage (freed s))).port = s.port := by
      unfold enterPage leavePage
      split <;> simp [freed]
    refine ⟨_, congrArg Host.Outcome.next (readComplete_running hawaits hlive hrunning (by rw [hdone]; exact hall.1)), ?_⟩
    rw [hdone]
    refine ⟨hall, by simpa using hport, hexpected, htarget, hpage, hentered, hslot, fun hfirst => ?_, fun older p hold hlist => ?_,
      fun p rest hold hprogress hlist hleft hcount => ?_, (checksPool_poolCheck _).congr (slots_enterPage_leavePage (freed s))⟩
    · rw [hrecords]
      simp [enteredIntake, leftRecords, freed, hfirst]
    · rw [hrecords]
      simp [enteredIntake, leftRecords, freed, hold, hlist, updateYoungest_append]
    · obtain ⟨hmark, hmem⟩ := leavePage_releases (s := freed s) hrunning hold hprogress hlist hleft hcount
      exact ⟨(poolCheck_reporting _).trans hmark, honly.2.2.2.2.2.2.1 _ hmem⟩

/-! ## Reads that fail or were abandoned (R26, R27, R44) -/

theorem endAbandonedRead_running {s : State} (h : s.engine.state = .running) :
    endAbandonedRead s = enterWatch { s with intake := { s.intake with readAbandoned := false } } := if_pos (by simp [engineIs, h])

theorem endAbandonedRead_other {s : State} (h : s.engine.state ≠ .running) :
    endAbandonedRead s = intakeOff { s with intake := { s.intake with readAbandoned := false } } := if_neg (by simp [engineIs, h])

/-- Every end of an abandoned read discards it alike. -/
theorem exec_abandoned {s : State} {tag : Nat} {step : ReadStep} {w : Word} {e : EntryWords} {c : Instr} (h : Awaits s tag (.intakeRead step))
    (habandoned : s.intake.readAbandoned = true)
    (hc : c = .intakeReadFail tag ∨ (step = .tally ∧ c = .tallyReadComplete tag w) ∨ (step = .next ∧ c = .nextReadComplete tag w)
      ∨ (step = .header ∧ c = .firstSeqReadComplete tag w) ∨ (step = .entry ∧ c = .entryReadComplete tag e)) :
    exec c s = .next (settle (freed s) (drainedTest (endAbandonedRead (freed s)))) := by
  have hread (f : State → State) : readComplete tag step f s = settle (freed s) (drainedTest (endAbandonedRead (freed s))) := by
    rw [readComplete_awaited h, intakeResult_of_abandoned (s := freed s) habandoned]
  rcases hc with rfl | ⟨rfl, rfl⟩ | ⟨rfl, rfl⟩ | ⟨rfl, rfl⟩ | ⟨rfl, rfl⟩
  · refine congrArg Host.Outcome.next ((failResponse_read h).trans ?_)
    rw [intakeReadFails, intakeResult_of_abandoned (s := freed s) habandoned]
  all_goals exact congrArg Host.Outcome.next (hread _)

theorem drainedTest_intake (s : State) : (drainedTest s).intake = { s.intake with records := (drainedTest s).intake.records }
    ∧ (drainedTest s).port.faultPending = s.port.faultPending := by
  unfold drainedTest
  split
  · exact ⟨rfl, rfl⟩
  · exact ⟨rfl, rfl⟩

theorem endAbandonedRead_leaves (s : State) : (endAbandonedRead s).intake.readAbandoned = false
    ∧ (endAbandonedRead s).intake.faultReason = s.intake.faultReason ∧ (endAbandonedRead s).port = s.port
    ∧ (endAbandonedRead s).intake.target = s.intake.target ∧ (endAbandonedRead s).intake.expected = s.intake.expected := by
  by_cases h : s.engine.state = .running
  · rw [endAbandonedRead_running h]
    obtain ⟨⟨hexpected, -⟩, htarget, -, -, hfault, habandoned⟩ := enterWatch_intake { s with intake := { s.intake with readAbandoned := false } }
    exact ⟨habandoned, hfault, by simp, htarget, hexpected⟩
  · rw [endAbandonedRead_other h]
    exact ⟨rfl, rfl, rfl, rfl, rfl⟩

/-- The drain's conditions once the abandoned read has ended. -/
theorem drain_after_abandoned {s : State} (h : s.engine.state = .draining) {x : State}
    (hx : x = intakeOff { freed s with intake := { s.intake with readAbandoned := false } }) :
    (x.engine.state = .draining ∧ occupied x = 0 ∧ reportHeld x = false ∧ intakeOutstanding x = false)
      ↔ (occupied s = 0 ∧ s.channel.queue.any Request.isReport = false) := by
  have hocc : occupied x = occupied s := by subst hx; rfl
  have hreport : reportHeld x = s.channel.queue.any Request.isReport := by
    subst hx
    simp [reportHeld, intakeOff, freed]
  have hstate : x.engine.state = .draining := by subst hx; exact h
  have hout : intakeOutstanding x = false := by subst hx; rfl
  simp [hocc, hreport, hstate, hout]

/-- Settles O25: a failed read breaks the intake; an abandoned one ends in WATCH or OFF. -/
theorem intakeReadFailsOrIsDiscarded : Obligations.IntakeReadFailsOrIsDiscarded := by
  refine ⟨fun s tag step hawaits hlive hrunning => ?_, fun s tag step w e c hawaits habandoned hc => ?_⟩
  · obtain ⟨honly, hwalk, htarget⟩ := intakeStep_breakIntake .bus step (freed s)
    have hfails : intakeReadFails step (freed s) = breakIntake .bus step (freed s) := by
      rw [intakeReadFails, intakeResult_of_live (s := freed s) hlive, drainedTest_of_running]
      rw [honly.1]
      exact hrunning
    refine ⟨_, congrArg Host.Outcome.next ((failResponse_read hawaits).trans (by rw [hfails])), honly, hwalk, htarget, breakIntake_candidate _ _ _,
      breaks_breakIntake _ _ _⟩
  · obtain ⟨hended, hfault, hport, htarget, hexpected⟩ := endAbandonedRead_leaves (freed s)
    obtain ⟨hintake, hpending⟩ := drainedTest_intake (endAbandonedRead (freed s))
    refine ⟨_, exec_abandoned hawaits habandoned hc, by rw [hintake]; exact hended, by rw [hintake]; exact hfault, by rw [hpending, hport]; rfl,
      by rw [hintake]; exact htarget, by rw [hintake]; exact hexpected, fun hrunning => ?_, fun hdraining => ?_⟩
    · obtain ⟨honly, hwalk, -⟩ := intakeStep_enterWatch { freed s with intake := { s.intake with readAbandoned := false } }
      have hwatch : drainedTest (endAbandonedRead (freed s)) = enterWatch { freed s with intake := { s.intake with readAbandoned := false } } := by
        rw [endAbandonedRead_running (s := freed s) hrunning, drainedTest_of_running (by simpa [freed] using hrunning)]
        rfl
      rw [hwatch]
      exact ⟨hwalk, (IntakeOnly.of_intake (freed s) _).trans honly, fun hnudge => watches_enterWatch hnudge,
        fun hnudge => (reads_enterWatch (s := { freed s with intake := { s.intake with readAbandoned := false } }) hnudge).1⟩
    · have hoff := endAbandonedRead_other (s := freed s) (by simp [freed, hdraining])
      have hconditions := drain_after_abandoned hdraining hoff
      have hstate : Off (endAbandonedRead (freed s)) ∧ (endAbandonedRead (freed s)).engine = s.engine ∧ SameWalk s (endAbandonedRead (freed s)) := by
        rw [hoff]
        exact ⟨⟨rfl, rfl, rfl, rfl⟩, rfl, ⟨rfl, rfl, rfl, rfl, rfl⟩⟩
      obtain ⟨hoffState, hengine, hwalk⟩ := hstate
      refine ⟨by rw [Off, hintake]; exact hoffState, fun hdone => ?_, fun hnot => ?_⟩
      · rw [drainedTest_of_drained (hconditions.mpr hdone)]
        exact ⟨rfl, rfl⟩
      · rw [drainedTest_of_not fun h => hnot (hconditions.mp h)]
        exact ⟨hengine, hwalk⟩

end Sys2Proof.Safety
end

section
/-! PROOFS. The master channel (section 10.4): which request is issued, with which address and data, and the response limit. -/

namespace Sys2Proof.Safety

open Sys2Proof.Machine

/-! ## The arbiter's pick (R186) -/

theorem isReport_iff (r : Request) : r.isReport = true ↔ (∃ i, r = .result i ∨ r = .estate i) ∨ r = .headerUpdate ∨ r = .release := by
  cases r <;> simp [Request.isReport]

theorem isIntake_iff (r : Request) : r.isIntake = true ↔ r = .startRead ∨ ∃ step, r = .intakeRead step := by
  cases r <;> simp [Request.isIntake]

theorem dataStroke_iff (r : Request) (i : StrokeId) : r.dataStroke = some i ↔ r = .hostRead i ∨ r = .hostWrite i := by
  cases r <;> simp [Request.dataStroke]

/-- The oldest REPORT request is picked. -/
theorem pickRequest_of_report {before after : List Request} {r : Request} (hr : r.isReport = true)
    (hbefore : ∀ x ∈ before, x.isReport = false) : pickRequest (before ++ r :: after) = some r := by
  have hfind : (before ++ r :: after).find? Request.isReport = some r :=
    List.find?_eq_some_iff_append.mpr ⟨hr, before, after, rfl, fun x hx => by simp [hbefore x hx]⟩
  simp only [pickRequest, hfind]

theorem find?_none_of_class {p : Request → Bool} {before after : List Request} {r : Request} (hr : p r = false)
    (h : ∀ x ∈ before ++ after, p x = false) : (before ++ r :: after).find? p = none := by
  rw [List.find?_eq_none]
  intro x hx
  rw [List.mem_append, List.mem_cons] at hx
  rcases hx with hx | rfl | hx
  · simp [h x (List.mem_append_left _ hx)]
  · simp [hr]
  · simp [h x (List.mem_append_right _ hx)]

/-- With no REPORT request the INTAKE request is picked. -/
theorem pickRequest_of_intake {before after : List Request} {r : Request} (hr : r.isIntake = true)
    (hreport : ∀ x ∈ before ++ after, x.isReport = false) (hbefore : ∀ x ∈ before, x.isIntake = false) :
    pickRequest (before ++ r :: after) = some r := by
  have hclass : r.isReport = false := by
    obtain rfl | ⟨step, rfl⟩ := (isIntake_iff r).mp hr <;> rfl
  have hnone : (before ++ r :: after).find? Request.isReport = none := find?_none_of_class hclass hreport
  have hfind : (before ++ r :: after).find? Request.isIntake = some r :=
    List.find?_eq_some_iff_append.mpr ⟨hr, before, after, rfl, fun x hx => by simp [hbefore x hx]⟩
  simp only [pickRequest, hnone, hfind]

/-- A stroke before the best of the requests seen takes its place. -/
theorem betterData_of_before {best : Option Request} {r : Request} {i : StrokeId} (hr : r.dataStroke = some i)
    (h : ∀ x j, best = some x → x.dataStroke = some j → dataBefore i j = true) : betterData best r = some r := by
  unfold betterData
  rw [hr]
  cases hbest : best.bind Request.dataStroke with
  | none => rfl
  | some j =>
    obtain ⟨x, hx, hj⟩ := Option.bind_eq_some_iff.mp hbest
    simp only [if_pos (h x j hx hj)]

/-- The best keeps its place against every request that is not before it. -/
theorem foldl_betterData_keeps {r : Request} {i : StrokeId} (hr : r.dataStroke = some i) (l : List Request)
    (h : ∀ x ∈ l, ∀ j, x.dataStroke = some j → dataBefore j i = false) : l.foldl betterData (some r) = some r := by
  induction l with
  | nil => rfl
  | cons x l ih =>
    have hx : betterData (some r) x = some r := by
      unfold betterData
      rw [Option.bind_some, hr]
      cases hj : x.dataStroke with
      | none => rfl
      | some j => simp only [h x List.mem_cons_self j hj, Bool.false_eq_true, if_false]
    rw [List.foldl_cons, hx]
    exact ih fun y hy => h y (List.mem_cons_of_mem x hy)

/-- With DATA requests alone the first by sequence and index is picked. -/
theorem pickRequest_of_data {before after : List Request} {r : Request} {i : StrokeId} (hr : r.dataStroke = some i)
    (hclass : ∀ x ∈ before ++ after, x.isReport = false ∧ x.isIntake = false)
    (hbefore : ∀ x ∈ before, ∀ j, x.dataStroke = some j → dataBefore i j = true)
    (hafter : ∀ x ∈ after, ∀ j, x.dataStroke = some j → dataBefore j i = false) : pickRequest (before ++ r :: after) = some r := by
  have hdata : r.isReport = false ∧ r.isIntake = false := by
    obtain rfl | rfl := (dataStroke_iff r i).mp hr <;> exact ⟨rfl, rfl⟩
  have hreport := find?_none_of_class hdata.1 fun x hx => (hclass x hx).1
  have hintake := find?_none_of_class hdata.2 fun x hx => (hclass x hx).2
  have hbest : betterData (before.foldl betterData none) r = some r :=
    betterData_of_before hr fun x j hx hj =>
      hbefore x (foldl_betterData_mem before before none nofun (fun _ h => h) x hx) j hj
  simp only [pickRequest, hreport, hintake, List.foldl_append, List.foldl_cons, hbest]
  exact foldl_betterData_keeps hr after hafter

theorem issueAccess_of_pick {s : State} {r : Request} (hheld : s.port.resetHeld = false) (hout : s.channel.outstanding = none)
    (hpick : pickRequest (s.channel.queue.filter (mayIssue s.engine.state)) = some r) : issueAccess s = issueRequest r s := by
  simp only [issueAccess, hout, hheld, hpick, Option.isSome_none, Bool.or_self, Bool.false_eq_true, if_false]

/-- Nothing is issued while an access is outstanding, nor where no queued request may be. -/
theorem issueAccess_of_none {s : State}
    (h : s.channel.outstanding.isSome = true ∨ ∀ r ∈ s.channel.queue, mayIssue s.engine.state r = false) : issueAccess s = s := by
  rcases h with hout | hnone
  · exact if_pos (by rw [hout, Bool.true_or])
  · have hfilter : s.channel.queue.filter (mayIssue s.engine.state) = [] := by simpa using hnone
    have hpick : pickRequest (s.channel.queue.filter (mayIssue s.engine.state)) = none := by rw [hfilter]; rfl
    simp only [issueAccess, hpick, ite_self]

/-- What the issue of a request changes beside the channel, in one line. -/
theorem issueEffect_eq (r : Request) (s : State) : issueEffect r s = { s with
    reporting := if r = .headerUpdate then { s.reporting with headerPending := false, notifyOwed := false } else s.reporting
    intake := if r = .intakeRead .tally then { s.intake with nudgePending := false } else s.intake } := by
  cases r with
  | intakeRead step => cases step <;> rfl
  | _ => rfl

/-- Settles O16: the arbiter picks by class, and the issue makes the pick the outstanding access. -/
theorem accessIssuePicksByClass : Obligations.AccessIssuePicksByClass := by
  refine ⟨fun r => ⟨rfl, rfl, beq_iff_eq, rfl, rfl⟩, fun s => rfl, fun a b => ?_, fun i j => ?_,
    fun r => ⟨isReport_iff r, isIntake_iff r, dataStroke_iff r⟩, fun s h => congrArg Host.Outcome.next (issueAccess_of_none h),
    fun s before after r hheld hout hqueue hpick => ?_⟩
  · simp [seqBefore, Nat.one_le_iff_ne_zero, Nat.pos_iff_ne_zero]
  · simp [dataBefore]
  · have hpicked : pickRequest (s.channel.queue.filter (mayIssue s.engine.state)) = some r := by
      rw [hqueue]
      rcases hpick with ⟨hr, hbefore⟩ | ⟨hr, hreport, hbefore⟩ | ⟨i, hr, hclass, hbefore, hafter⟩
      · exact pickRequest_of_report hr hbefore
      · exact pickRequest_of_intake hr hreport hbefore
      · exact pickRequest_of_data hr hclass hbefore hafter
    have hissue : exec .accessIssue s = .next (issueRequest r s) :=
      congrArg Host.Outcome.next (issueAccess_of_pick hheld hout hpicked)
    rw [hissue, issueRequest, issueEffect_eq]
    rfl

/-! ## Addresses and data (R1 to R20) -/

/-- Setting the bits of the chosen regions one after another. -/
theorem getLsbD_foldl_twoPow (p : RegionId → Bool) (l : List RegionId) (m : BitVec 64) (i : RegionId) :
    (l.foldl (fun m r => if p r then m ||| BitVec.twoPow 64 r.val else m) m).getLsbD i.val
      = (m.getLsbD i.val || l.any fun r => p r && r == i) := by
  induction l generalizing m with
  | nil => simp
  | cons r l ih =>
    rw [List.foldl_cons, ih, List.any_cons, ← Bool.or_assoc]
    congr 1
    split
    · rename_i hp
      have hbit : (BitVec.twoPow 64 r.val).getLsbD i.val = (r == i) := by
        rw [BitVec.getLsbD_twoPow, Bool.eq_iff_iff]
        simp [Fin.ext_iff]
      rw [BitVec.getLsbD_or, hbit, hp, Bool.true_and]
    · rename_i hp
      simp [hp]

/-- A bit of the LOST map is its region's. -/
theorem lostMap_bit (s : State) (r : RegionId) : (lostMap s).getLsbD r.val = true ↔ s.regions[r].state = .lost := by
  rw [lostMap, getLsbD_foldl_twoPow, Bool.or_eq_true, List.any_eq_true]
  simp [allRegions, regionState]

theorem domainCode_lt (x : DomainState) : DomainState.code x < 4 := by cases x <;> decide

/-- The fields of CONDITION at their bits (R3). -/
theorem conditionWord_fields (s : State) : ((conditionWord s).extractLsb' 0 2).toNat = tempClassCode s.refresh.tempClass
    ∧ ((conditionWord s).extractLsb' 2 2).toNat = ArrayMode.code s.arrayMode.mode
    ∧ (∀ d : DomainId, ((conditionWord s).extractLsb' (4 + 2 * d.val) 2).toNat = DomainState.code s.domains.states[d])
    ∧ ((conditionWord s).extractLsb' 12 3).toNat = IntakeState.code s.intake.state ∧ (conditionWord s).extractLsb' 15 17 = 0 := by
  obtain ⟨-, hintake, -, -, hmode, hclass⟩ := code_bounds s
  have h0 := domainCode_lt s.domains.states[0]
  have h1 := domainCode_lt s.domains.states[1]
  have h2 := domainCode_lt s.domains.states[2]
  have h3 := domainCode_lt s.domains.states[3]
  refine ⟨?_, ?_, fun d => ?_, ?_, extractLsb'_of_digits ?_⟩
  · rw [conditionWord, extractLsb'_ofNat_toNat]; omega
  · rw [conditionWord, extractLsb'_ofNat_toNat]; omega
  · rw [conditionWord, extractLsb'_ofNat_toNat]
    match d with
    | 0 =>
      change _ / 2 ^ 4 % 2 ^ 2 = DomainState.code s.domains.states[0]
      omega
    | 1 =>
      change _ / 2 ^ 6 % 2 ^ 2 = DomainState.code s.domains.states[1]
      omega
    | 2 =>
      change _ / 2 ^ 8 % 2 ^ 2 = DomainState.code s.domains.states[2]
      omega
    | 3 =>
      change _ / 2 ^ 10 % 2 ^ 2 = DomainState.code s.domains.states[3]
      omega
  · rw [conditionWord, extractLsb'_ofNat_toNat]; omega
  · simp; omega

theorem ofNat_mul_32 (n : Nat) : BitVec.ofNat 32 (32 * n) = 32 * BitVec.ofNat 32 n := by simp [BitVec.ofNat_mul]

/-- The address of an entry (R7). -/
theorem entryAddress_eq (o : PoolOrder) : o.entryAddress = o.pageAddress + 32 + 32 * BitVec.ofNat 32 o.entrySlot := by
  rw [PoolOrder.entryAddress, ofNat_mul_32]

theorem outcomeCode_lt (c : OutcomeCode) : c.code < 256 := by cases c <;> decide

/-- The fields of a result's word 6 (R5, R12). -/
theorem resultWord6_toNat {o : PoolOrder} {c : OutcomeCode} (hc : o.outcome = some c) (hreason : o.reason < 256)
    (hcorrected : o.corrected < 65536) : (resultWord6 o).toNat = c.code + 256 * o.reason + 65536 * o.corrected := by
  have hcode := outcomeCode_lt c
  simp only [resultWord6, hc, Option.map_some, Option.getD_some, BitVec.toNat_ofNat]
  omega

/-- Settles O17: the address and the data of every access, and the codes they carry. -/
theorem accessAddressesAndData : Obligations.AccessAddressesAndData := by
  intro s
  refine ⟨rfl, rfl, rfl, rfl, ?_, rfl, lostMap_bit s, fun i o ho => ?_, fun p rest hrecords => ?_, fun o c => resultWord6_toNat,
    fun i r hr => ?_, fun i => ?_, fun r b h d hb hh hd => ?_, rfl, conditionWord_fields s, by decide, by decide, by decide, by decide, by decide⟩
  · simp only [accessOf, entryReadAddress, ofNat_mul_32]
  · simp only [accessOf, ho, entryAddress_eq]
    exact ⟨rfl, rfl⟩
  · simp [accessOf, hrecords]
  · simp [accessOf, hr]
  · rfl
  · rw [Fin.getElem_fin] at hh
    simp [strokeData, hb, hh, hd]

/-! ## The response limit (R187) -/

/-- The second expiry fails the access as an error response to it would. -/
theorem expire_reissued {s : State} {a : Access} (hout : s.channel.outstanding = some a) (hstage : a.stage = .reissued)
    {sort : Request → Bool} (hsort : sort a.request = true) : exec .responseLimitExpiry s = .next (failResponse a.tag sort s) := by
  obtain ⟨b, hb, -, hfail⟩ := onResponse_awaited (fun a => accessFails a.request) ⟨a, hout, rfl, rfl⟩ hsort
  obtain rfl : a = b := Option.some.inj (hout.symm.trans hb)
  have hexpire : expire a s = settle (freed s) (accessFails a.request (freed s)) := by
    simp only [expire, hstage]
    rfl
  have hexec : exec .responseLimitExpiry s = .next (expire a s) := by
    simp only [exec, execResponseLimitExpiry, hout]
  rw [hexec, hexpire, failResponse, hfail]

/-- Settles O18: the first expiry repeats the access, the second fails it. -/
theorem responseLimitExpiresTwice : Obligations.ResponseLimitExpiresTwice := by
  refine ⟨fun s hout => ?_, fun s a hout hfirst => ?_, fun s a hout hstage => ⟨fun hr => ?_, fun step hr => ?_, fun hr => ?_, fun hr => ?_⟩⟩
  · simp only [exec, execResponseLimitExpiry, hout]
  · simp only [exec, execResponseLimitExpiry, hout, expire, hfirst, reissue]
  · exact expire_reissued hout hstage (by rw [hr]; rfl)
  · exact expire_reissued hout hstage (by rw [hr]; rfl)
  · exact expire_reissued hout hstage hr
  · exact expire_reissued hout hstage hr

end Sys2Proof.Safety
end

section
/-! PROOFS. The start read, the take of an order, the waits of the intake and the ends of the reporting writes (chapters 1, 2 and 10). -/

namespace Sys2Proof.Safety

open Sys2Proof.Machine

/-! ## The start read (R190) -/

/-- The header update that the flag stands for waits in the queue. -/
theorem headerUpdate_mem {s : State} (h : HeaderFlagAgrees s) (hpending : s.reporting.headerPending = true) :
    .headerUpdate ∈ s.channel.queue := by
  rw [HeaderFlagAgrees, hpending] at h
  exact List.count_pos_iff.mp (by rw [h]; decide)

/-- The intake as the run begins: initialised, with nudge-pending, and reading the tally (R25, R30). -/
def runIntake (page : Word) (i : Intake) : Intake :=
  { startIntake page i with state := .reading, readStep := some .tally, pollTimer := none }

/-- What the beginning of the run makes of each block (R190, R9, R25). -/
theorem beginRun_blocks (page : Word) (s : State) : (beginRun page s).engine = { s.engine with state := .running }
    ∧ (beginRun page s).pool = { s.pool with taken := 0, finished := 0, oldestOpen := 0 } ∧ (beginRun page s).reporting.released = 0
    ∧ (beginRun page s).intake = runIntake page s.intake ∧ (beginRun page s).port = s.port ∧ (beginRun page s).table = s.table
    ∧ (beginRun page s).strokes = s.strokes ∧ SameArraySide s (beginRun page s) ∧ (beginRun page s).arrayMode = s.arrayMode
    ∧ (beginRun page s).pending = s.pending ∧ (beginRun page s).channel.outstanding = s.channel.outstanding := by
  rw [beginRun_eq, enterWatch_of_nudge (by simp [beginCounts, startIntake])]
  simp [beginCounts, runIntake, queueRead, SameArraySide]

theorem reads_beginRun (page : Word) (s : State) : Reads .tally (beginRun page s) := by
  rw [beginRun_eq]
  exact (reads_enterWatch (by simp [beginCounts, startIntake])).1

/-- The run begins with a header update waiting (R16). -/
theorem headerPending_beginRun (page : Word) (s : State) : (beginRun page s).reporting.headerPending = true := by
  obtain ⟨hengine, -⟩ := beginRun_blocks page s
  have hasked : HeaderAsked (beginRun page s) := by
    rw [beginRun_eq]
    exact (reads_enterWatch (by simp [beginCounts, startIntake])).2
  exact hasked (engineLive_of_running (by rw [hengine]))

theorem headerUpdate_mem_beginRun (page : Word) {s : State} (h : HeaderFlagAgrees s) : .headerUpdate ∈ (beginRun page s).channel.queue :=
  headerUpdate_mem ((KeepsBase.after_beginRun page s).header h) (headerPending_beginRun page s)

/-- With a REPORT request waiting and nothing outstanding a disable leaves the engine DRAINING and the intake OFF (R191, R26). -/
theorem disableEngine_of_report {s : State} (hout : s.channel.outstanding = none) {r : Request} (hmem : r ∈ s.channel.queue)
    (hr : r.isReport = true) : disableEngine s = intakeOff { s with
      engine := { s.engine with state := .draining }
      channel := { s.channel with queue := s.channel.queue.filter fun r => !r.isIntake } } := by
  have hstop : stopIntake { s with engine := { s.engine with state := .draining } } = intakeOff { s with
      engine := { s.engine with state := .draining }
      channel := { s.channel with queue := s.channel.queue.filter fun r => !r.isIntake } } :=
    if_neg (by simp [intakeOutstanding, hout])
  have hclass : r.isIntake = false := by
    obtain ⟨i, rfl | rfl⟩ | rfl | rfl := (isReport_iff r).mp hr <;> rfl
  rw [disableEngine, hstop]
  refine drainedTest_of_not fun ⟨_, _, hheld, _⟩ => ?_
  have hheld' : reportHeld (intakeOff { s with
      engine := { s.engine with state := .draining }
      channel := { s.channel with queue := s.channel.queue.filter fun r => !r.isIntake } }) = true :=
    (reportHeld_iff _).mpr ⟨r, .inl (List.mem_filter.mpr ⟨hmem, by rw [hclass]; rfl⟩), hr⟩
  exact absurd hheld' (by rw [hheld]; decide)

/-- Settles O19: a start read that fails or gives no valid page halts the engine, a valid one begins the run. -/
theorem startReadDecidesTheRun : Obligations.StartReadDecidesTheRun := by
  intro s tag posted page hawaits hflag
  obtain ⟨a, -, -, hdone⟩ := onResponse_awaited (fun _ => startReadDone page) hawaits (sort := Request.isStart) rfl
  obtain ⟨b, -, hb, hfail⟩ := onResponse_awaited (fun a => accessFails a.request) hawaits (sort := Request.isStart) rfl
  have hexec : exec (.startReadComplete tag posted page) s = .next (settle (freed s) (startReadDone page (freed s))) :=
    congrArg Host.Outcome.next hdone
  refine ⟨?_, fun hpage => ?_, fun hzero haligned => ?_⟩
  · rw [hb] at hfail
    exact congrArg Host.Outcome.next hfail
  · have hinvalid : ¬validPage page = true := fun h => by
      obtain ⟨hzero, haligned⟩ := (validPage_iff page).mp h
      exact hpage.elim hzero fun hne => hne haligned
    rw [hexec, startReadDone, if_pos (by simpa using hinvalid)]
    rfl
  · have hvalid : validPage page = true := (validPage_iff page).mpr ⟨hzero, haligned⟩
    refine ⟨_, hexec, ?_⟩
    obtain ⟨hengine, hpool, hreleased, hintake, hport, htable, hstrokes, harray, hmode, hpending, hout⟩ := beginRun_blocks page (freed s)
    have hheader := headerPending_beginRun page (freed s)
    have hmem := headerUpdate_mem_beginRun page (s := freed s) hflag
    have hreads := reads_beginRun page (freed s)
    rw [startReadDone, if_neg (by simp [hvalid])]
    by_cases henable : s.port.enable = true
    · rw [if_pos (show (freed s).port.enable = true from henable)]
      exact ⟨by rw [hengine]; rfl, hpool, hreleased, hheader, hmem, by rw [hintake]; rfl, by rw [hintake]; rfl, by rw [hintake]; rfl,
        by rw [hintake]; rfl, by rw [hintake]; rfl, by rw [hintake]; rfl, by rw [hintake]; rfl,
        fun _ => ⟨by rw [hengine], hreads, by rw [hintake]; rfl⟩, fun hoff => absurd henable (by simp [hoff]), hport, htable, hstrokes,
        harray, hmode, hpending⟩
    · rw [if_neg (show ¬(freed s).port.enable = true from henable), disableEngine_of_report hout hmem rfl]
      have hkept : .headerUpdate ∈ (beginRun page (freed s)).channel.queue.filter fun r => !r.isIntake := List.mem_filter.mpr ⟨hmem, rfl⟩
      exact ⟨by simp [freed], hpool, hreleased, hheader, hkept,
        by simp [intakeOff, hintake, runIntake, startIntake], by simp [intakeOff, hintake, runIntake, startIntake],
        by simp [intakeOff, hintake, runIntake, startIntake], by simp [intakeOff, hintake, runIntake, startIntake],
        by simp [intakeOff, hintake, runIntake, startIntake], by simp [intakeOff, hintake, runIntake, startIntake],
        by simp [intakeOff, hintake, runIntake, startIntake], fun hon => absurd hon henable,
        fun _ => ⟨rfl, ⟨rfl, rfl, rfl, rfl⟩, fun r hr => by simpa using (List.mem_filter.mp hr).2⟩, hport, htable, hstrokes, harray, hmode,
        hpending⟩

/-! ## The take (R38, R39) -/

theorem afterTake_clauses (w : State) : (w.intake.expected = w.intake.target → Reads .tally (afterTake w))
    ∧ (w.intake.expected ≠ w.intake.target → BeginsTake w (afterTake w)) := by
  refine ⟨fun h => ?_, fun h => ?_⟩
  · rw [afterTake, if_pos h]
    exact reads_queueRead .tally w
  · rw [afterTake, if_neg h]
    exact beginsTake_beginTake w

/-- The fields of an entry as numbers (R5). -/
theorem entry_fields (e : EntryWords) : e.estate.toNat = e.word0.toNat / 16777216 ∧ e.lane.val = e.word0.toNat / 256 % 4
    ∧ e.domain.val = e.word5.toNat % 4 := by
  have hword := e.word0.isLt
  refine ⟨?_, ?_, ?_⟩
  · rw [EntryWords.estate, BitVec.extractLsb'_toNat, Nat.shiftRight_eq_div_pow]
    omega
  · have hlane : e.lane.val = (e.word0.extractLsb' 8 2).toNat := rfl
    rw [hlane, BitVec.extractLsb'_toNat, Nat.shiftRight_eq_div_pow]
  · have hdomain : e.domain.val = (e.word5.extractLsb' 0 2).toNat := rfl
    rw [hdomain, BitVec.extractLsb'_toNat, Nat.shiftRight_eq_div_pow]
    simp

/-- Each kind stands for its KIND number. -/
theorem kind_codes (e : EntryWords) : [OrderKind.load, .fetch, .copy, .fill, .scrub, .retain, .power, .mark].map (fun k => e.kind == some k) =
    [1, 2, 3, 4, 5, 6, 7, 8].map (fun n => e.word0.toNat % 256 == n) := by
  rcases EntryWords.kind_cases e with ⟨hkind, hcode⟩ | ⟨k, hkind, hcode⟩
  · have hne : ∀ n ∈ ([1, 2, 3, 4, 5, 6, 7, 8] : List Nat), (e.word0.toNat % 256 == n) = false := fun n hn => by
      simp only [List.mem_cons, List.not_mem_nil, or_false] at hn
      rw [beq_eq_false_iff_ne]
      omega
    rw [hkind, List.map_congr_left hne]
    rfl
  · rw [hkind, hcode]
    cases k <;> decide

/-- Of the earliest sequence so far and the next, the one that stays. -/
def earlierSeq (m x : Word) : Word := if seqBefore x m then x else m

/-- Within half the span of sequences, earlier is nearer to the span's start. -/
theorem seqBefore_iff_offset {base a b : Word} (ha : (a - base).toNat < 2147483648) (hb : (b - base).toNat < 2147483648) :
    seqBefore a b = true ↔ (a - base).toNat < (b - base).toNat := by
  simp only [seqBefore, Bool.and_eq_true, decide_eq_true_eq]
  bv_omega

/-- The fold keeps the sequence nearest to the span's start. -/
theorem foldl_earlierSeq_least {base : Word} (l : List Word) (m : Word) (h : ∀ x ∈ m :: l, (x - base).toNat < 2147483648) :
    l.foldl earlierSeq m ∈ m :: l ∧ ∀ x ∈ m :: l, (l.foldl earlierSeq m - base).toNat ≤ (x - base).toNat := by
  induction l generalizing m with
  | nil => simp
  | cons y l ih =>
    have hm := h m (by simp)
    have hy := h y (by simp)
    have hbest : (earlierSeq m y = m ∨ earlierSeq m y = y) ∧ (earlierSeq m y - base).toNat ≤ (m - base).toNat
        ∧ (earlierSeq m y - base).toNat ≤ (y - base).toNat := by
      unfold earlierSeq
      split
      · rename_i hbefore
        exact ⟨.inr rfl, Nat.le_of_lt ((seqBefore_iff_offset hy hm).mp hbefore), Nat.le_refl _⟩
      · rename_i hbefore
        exact ⟨.inl rfl, Nat.le_refl _, Nat.not_lt.mp fun hlt => hbefore ((seqBefore_iff_offset hy hm).mpr hlt)⟩
    obtain ⟨hcase, hlem, hley⟩ := hbest
    have hspan : ∀ x ∈ earlierSeq m y :: l, (x - base).toNat < 2147483648 := fun x hx => by
      rcases List.mem_cons.mp hx with rfl | hx
      · exact Nat.lt_of_le_of_lt hlem hm
      · exact h x (by simp [hx])
    obtain ⟨hmem, hleast⟩ := ih (earlierSeq m y) hspan
    rw [List.foldl_cons]
    refine ⟨?_, fun x hx => ?_⟩
    · rcases List.mem_cons.mp hmem with heq | hmem
      · rw [heq]
        rcases hcase with hc | hc <;> simp [hc]
      · simp [hmem]
    · have hfirst := hleast _ List.mem_cons_self
      rcases List.mem_cons.mp hx with rfl | hx
      · exact Nat.le_trans hfirst hlem
      · rcases List.mem_cons.mp hx with rfl | hx
        · exact Nat.le_trans hfirst hley
        · exact hleast x (List.mem_cons_of_mem _ hx)

/-- The sequences of a pool. -/
def poolSeqs (p : Pool) : List Word := p.slots.toList.filterMap fun o => o.map PoolOrder.seq

theorem mem_poolSeqs {p : Pool} {q : Word} : q ∈ poolSeqs p ↔ ∃ (i : SlotId) (o : PoolOrder), p.slots[i] = some o ∧ o.seq = q := by
  simp only [poolSeqs, List.mem_filterMap, Option.map_eq_some_iff, Vector.mem_toList_iff]
  constructor
  · rintro ⟨x, hx, o, rfl, ho⟩
    obtain ⟨i, hi, hget⟩ := Vector.mem_iff_getElem.mp hx
    exact ⟨⟨i, hi⟩, o, hget, ho⟩
  · rintro ⟨i, o, hi, ho⟩
    exact ⟨some o, hi ▸ Vector.getElem_mem _, o, rfl, ho⟩

/-- The oldest-open sequence of an empty pool is TAKEN (R52). -/
theorem computeOldest_empty {p : Pool} (h : ∀ i : SlotId, p.slots[i] = none) : computeOldest p = p.taken := by
  have hseqs : poolSeqs p = [] := List.eq_nil_iff_forall_not_mem.mpr fun q hq => by
    obtain ⟨i, o, hi, -⟩ := mem_poolSeqs.mp hq
    exact absurd (h i) (by rw [hi]; simp)
  have hoforder : computeOldest p = earliest p.taken (poolSeqs p) := rfl
  rw [hoforder, hseqs]
  rfl

/-- The oldest-open sequence is the earliest in the pool, the sequences lying within half the span (R52, R6). -/
theorem computeOldest_least {p : Pool} {base : Word} {i : SlotId} {o : PoolOrder} (hi : p.slots[i] = some o)
    (hspan : ∀ (j : SlotId) (x : PoolOrder), p.slots[j] = some x → (x.seq - base).toNat < 2147483648) :
    ∃ (j : SlotId) (x : PoolOrder), p.slots[j] = some x ∧ computeOldest p = x.seq
      ∧ ∀ (k : SlotId) (y : PoolOrder), p.slots[k] = some y → y.seq = x.seq ∨ seqBefore x.seq y.seq = true := by
  have hoforder : computeOldest p = earliest p.taken (poolSeqs p) := rfl
  have hwithin : ∀ q ∈ poolSeqs p, (q - base).toNat < 2147483648 := fun q hq => by
    obtain ⟨j, x, hj, rfl⟩ := mem_poolSeqs.mp hq
    exact hspan j x hj
  have hmem : o.seq ∈ poolSeqs p := mem_poolSeqs.mpr ⟨i, o, hi, rfl⟩
  cases hseqs : poolSeqs p with
  | nil => simp [hseqs] at hmem
  | cons m l =>
    rw [hseqs] at hwithin
    obtain ⟨hin, hleast⟩ := foldl_earlierSeq_least l m hwithin
    have hold : computeOldest p = l.foldl earlierSeq m := by rw [hoforder, hseqs]; rfl
    obtain ⟨j, x, hj, hx⟩ := mem_poolSeqs.mp (hseqs ▸ hin)
    refine ⟨j, x, hj, hold.trans hx.symm, fun k y hk => ?_⟩
    have hy : y.seq ∈ m :: l := hseqs ▸ mem_poolSeqs.mpr ⟨k, y, hk, rfl⟩
    have hle := hleast y.seq hy
    rw [← hx] at hle
    have hxspan := hspan j x hj
    have hyspan := hspan k y hk
    by_cases heq : (x.seq - base).toNat = (y.seq - base).toNat
    · exact .inl (by bv_omega)
    · exact .inr ((seqBefore_iff_offset hxspan hyspan).mpr (Nat.lt_of_le_of_ne hle heq))

/-- Settles O24: a mismatch breaks the intake; a match takes the order into a free slot, and the lane and the intake go on. -/
theorem entryReadTakesTheOrder : Obligations.EntryReadTakesTheOrder := by
  refine ⟨fun s tag e hawaits hlive hrunning => ⟨fun hwrong => ?_, fun hestate hseq ⟨j, hj⟩ => ?_⟩, afterTake_clauses, fun e => ?_,
    fun p => ⟨computeOldest_empty, fun base i o hi => computeOldest_least hi⟩⟩
  · have hmismatch : entryDone e (freed s) = breakIntake .entryMismatch .entry (freed s) := by
      rw [entryDone, if_neg]
      simp only [entryMatches, Bool.and_eq_true, beq_iff_eq]
      rintro ⟨hestate, hseq⟩
      exact hwrong.elim (fun h => h hestate) fun h => h hseq
    have hstep := intakeStep_breakIntake .entryMismatch .entry (freed s)
    refine ⟨_, congrArg Host.Outcome.next (readComplete_running hawaits hlive hrunning (f := entryDone e) ?_), ?_⟩
    · rw [hmismatch]
      exact hstep.only.1
    · rw [hmismatch]
      exact ⟨hstep.only, hstep.walk, hstep.target, breaks_breakIntake _ _ _⟩
  · obtain ⟨i, hi⟩ := Option.isSome_iff_exists.mp ((freeSlot_isSome_iff (freed s)).mpr ⟨j, hj⟩)
    have hmatch : entryDone e (freed s) = afterTake (promote e.lane (taken e i (freed s))) := by
      rw [entryDone, if_pos, takeOrder_some hi]
      simp only [entryMatches, Bool.and_eq_true, beq_iff_eq]
      exact ⟨hestate, hseq⟩
    refine ⟨i, taken e i (freed s), freeSlot_free hi, ?_, rfl, rfl, rfl, rfl, rfl, rfl, rfl, rfl, fun older p hrecords => ?_⟩
    · have hread := readComplete_running hawaits hlive hrunning (f := entryDone e) (by rw [hmatch]; simp [taken])
      rw [hmatch] at hread
      exact congrArg Host.Outcome.next hread
    · have hyoungest : (taken e i (freed s)).intake.records =
          updateYoungest (fun p => { p with takenCount := p.takenCount + 1 }) s.intake.records := rfl
      rw [hyoungest, hrecords, updateYoungest_append]
  · obtain ⟨hestate, hlane, hdomain⟩ := entry_fields e
    exact ⟨hestate, hlane, rfl, rfl, hdomain, rfl, rfl, kind_codes e⟩

end Sys2Proof.Safety
end

section
/-! PROOFS. The waits of the intake that end (R28, R42, R43) and the ends of the reporting writes (R12, R14, R17, R19, R20). -/

namespace Sys2Proof.Safety

open Sys2Proof.Machine

/-! ## Waits that end -/

theorem stalledPoolTest_of_free {s : State} (hstate : s.intake.state = .stalledPool) (hfree : ∃ i, slotOrder s i = none) :
    stalledPoolTest s = queueRead .entry s := if_pos ⟨hstate, (freeSlot_isSome_iff s).mpr hfree⟩

theorem stalledPoolTest_of_not {s : State} (h : s.intake.state ≠ .stalledPool ∨ ∀ i, slotOrder s i ≠ none) : stalledPoolTest s = s := by
  refine if_neg fun ⟨hstate, hfree⟩ => ?_
  obtain ⟨i, hi⟩ := (freeSlot_isSome_iff s).mp hfree
  exact h.elim (fun hne => hne hstate) fun hfull => hfull i hi

theorem stalledPagesTest_of_room {s : State} (hstate : s.intake.state = .stalledPages) (hroom : s.intake.records.length < 4) :
    stalledPagesTest s = goToPage s := if_pos ⟨hstate, hroom⟩

theorem stalledPagesTest_of_not {s : State} (h : s.intake.state ≠ .stalledPages ∨ 4 ≤ s.intake.records.length) : stalledPagesTest s = s :=
  if_neg fun ⟨hstate, hroom⟩ => h.elim (fun hne => hne hstate) fun hfull => absurd hroom (Nat.not_lt.mpr hfull)

theorem goToPage_leaves (s : State) : (goToPage s).port = s.port ∧ (goToPage s).reporting = s.reporting
    ∧ (goToPage s).intake.nudgePending = s.intake.nudgePending := by
  unfold goToPage
  split <;> exact ⟨rfl, rfl, rfl⟩

theorem nudgeFollows_iff (s : State) : nudgeFollows s = true ↔
    (∃ v rest, s.pending = .nudge v :: rest) ∧ s.engine.state = .running ∧ s.port.resetHeld = false := by
  unfold nudgeFollows
  split
  · rename_i v rest h
    simp [h, engineIs]
  · rename_i h
    refine ⟨nofun, fun ⟨⟨v, rest, hpending⟩, _⟩ => absurd hpending (h v rest)⟩

/-- The tally read is issued at the next chance: one access with the next tag, and READING without nudge-pending. -/
def TallyIssued (n : Nat) (t : State) : Prop :=
  t.channel.queue = [] ∧ Awaits t n (.intakeRead .tally) ∧ t.intake.state = .reading ∧ t.intake.nudgePending = false

theorem tallyIssued_issueAccess {w : State} (hheld : w.port.resetHeld = false) (hrunning : w.engine.state = .running)
    (hqueue : w.channel.queue = [.intakeRead .tally]) (hout : w.channel.outstanding = none) (hreading : w.intake.state = .reading) :
    TallyIssued w.channel.nextTag (issueAccess w) := by
  have hpick : pickRequest (w.channel.queue.filter (mayIssue w.engine.state)) = some (.intakeRead .tally) := by
    rw [hqueue, hrunning]
    rfl
  rw [issueAccess_of_pick hheld hout hpick]
  refine ⟨?_, ⟨_, rfl, rfl, rfl⟩, hreading, rfl⟩
  simp [issueRequest, issueEffect, hqueue]

/-- `s` with these commands waiting. -/
def waitingFor (p : List Instr) (s : State) : State := { s with pending := p }

theorem exec_nudge_running (w : State) (hheld : w.port.resetHeld = false) (hrunning : w.engine.state = .running) (v : Word) :
    exec (.nudge v) w = .next (issueAccess (nudgeIntake w)) := congrArg Host.Outcome.next (if_neg (by simp [hheld, engineIs, hrunning]))

theorem nudgeIntake_of_watch {s : State} (h : s.intake.state = .watch) : nudgeIntake s = queueRead .tally s := by simp only [nudgeIntake, h]

theorem pollExpires_of_nudge {s : State} (hwatch : s.intake.state = .watch) (htimer : s.intake.pollTimer.isSome = true)
    (h : nudgeFollows s = true) : pollExpires s = queueRead .tally s := (if_pos ⟨hwatch, htimer⟩).trans (if_pos h)

theorem pollExpires_of_alone {s : State} (hwatch : s.intake.state = .watch) (htimer : s.intake.pollTimer.isSome = true)
    (h : ¬nudgeFollows s = true) : pollExpires s = issueAccess (queueRead .tally s) := (if_pos ⟨hwatch, htimer⟩).trans (if_neg h)

theorem pollExpires_of_reading {s : State} (h : s.intake.state = .reading) : pollExpires s = s := if_neg fun ⟨hwatch, _⟩ => by
  rw [h] at hwatch
  cases hwatch

/-- An expiry and a NUDGE that fall together give one tally read, in either order (R30). -/
theorem expiry_and_nudge {s : State} (v : Word) (rest : List Instr) (hheld : s.port.resetHeld = false) (hrunning : s.engine.state = .running)
    (hwatch : s.intake.state = .watch) (htimer : s.intake.pollTimer.isSome = true) (hqueue : s.channel.queue = [])
    (hout : s.channel.outstanding = none) :
    ∃ a b x y z, step { s with pending := .pollTimerExpiry :: .nudge v :: rest } = .next a ∧ step a = .next x
      ∧ step { s with pending := .nudge v :: .pollTimerExpiry :: rest } = .next b ∧ step b = .next y
      ∧ step { s with pending := .pollTimerExpiry :: .accessIssue :: rest } = .next z
      ∧ ∀ t ∈ [x, y, z], TallyIssued s.channel.nextTag t := by
  have hqueued : ∀ p, (queueRead .tally (waitingFor p s)).channel.queue = [.intakeRead .tally] := fun p => by
    simp [queueRead, waitingFor, hqueue]
  have hread : ∀ p, TallyIssued s.channel.nextTag (issueAccess (queueRead .tally (waitingFor p s))) := fun p =>
    tallyIssued_issueAccess hheld hrunning (hqueued p) hout rfl
  have hexpiryFirst : pollExpires (waitingFor (.nudge v :: rest) s) = queueRead .tally (waitingFor (.nudge v :: rest) s) :=
    pollExpires_of_nudge hwatch htimer ((nudgeFollows_iff _).mpr ⟨⟨v, rest, rfl⟩, hrunning, hheld⟩)
  have halone : pollExpires (waitingFor (.accessIssue :: rest) s) = issueAccess (queueRead .tally (waitingFor (.accessIssue :: rest) s)) :=
    pollExpires_of_alone hwatch htimer fun h => absurd ((nudgeFollows_iff _).mp h).1 (by simp [waitingFor])
  have hnudgeFirst : nudgeIntake (waitingFor (.pollTimerExpiry :: rest) s) = queueRead .tally (waitingFor (.pollTimerExpiry :: rest) s) :=
    nudgeIntake_of_watch hwatch
  have hpending : (issueAccess (queueRead .tally (waitingFor (.pollTimerExpiry :: rest) s))).pending = .pollTimerExpiry :: rest := by
    simp [waitingFor]
  obtain ⟨hempty, hawaits, hreading, hflag⟩ := hread (.pollTimerExpiry :: rest)
  refine ⟨_, _, issueAccess (setNudge (waitingFor rest (queueRead .tally (waitingFor (.nudge v :: rest) s)))),
    waitingFor rest (issueAccess (queueRead .tally (waitingFor (.pollTimerExpiry :: rest) s))), _, congrArg Host.Outcome.next hexpiryFirst,
    exec_nudge_running (waitingFor rest (queueRead .tally (waitingFor (.nudge v :: rest) s))) hheld hrunning v,
    (exec_nudge_running (waitingFor (.pollTimerExpiry :: rest) s) hheld hrunning v).trans (by rw [hnudgeFirst]), ?_,
    congrArg Host.Outcome.next halone, fun t ht => ?_⟩
  · simp only [step, hpending]
    exact congrArg Host.Outcome.next (pollExpires_of_reading hreading)
  · simp only [List.mem_cons, List.not_mem_nil, or_false] at ht
    obtain rfl | rfl | rfl := ht
    · exact tallyIssued_issueAccess hheld hrunning (hqueued _) hout rfl
    · exact ⟨hempty, hawaits, hreading, hflag⟩
    · exact hread _

/-- Settles O26: the intake goes to READING where its wait has ended, and stays where it has not. -/
theorem waitingIntakeGoesOnReading : Obligations.WaitingIntakeGoesOnReading := by
  refine ⟨fun s h => ?_, fun s hwatch htimer => ?_, fun s hstate hfree => ?_, fun s hstate hroom => ?_, fun s h => ?_, fun s h => ?_,
    fun s v rest hheld hrunning hwatch htimer hqueue hout => expiry_and_nudge v rest hheld hrunning hwatch htimer hqueue hout⟩
  · refine congrArg Host.Outcome.next (if_neg fun ⟨hwatch, htimer⟩ => h.elim (fun hne => hne hwatch) fun hnone => ?_)
    simp [hnone] at htimer
  · have hstep := intakeStep_queueRead .tally s
    have hexpire : exec .pollTimerExpiry s = .next (if nudgeFollows s then queueRead .tally s else issueAccess (queueRead .tally s)) :=
      congrArg Host.Outcome.next (if_pos ⟨hwatch, htimer⟩)
    refine ⟨queueRead .tally s, fun hnudge => ?_, fun hnone => ?_, rfl, reads_queueRead .tally s, hstep.only, hstep.walk, rfl, rfl, rfl, rfl⟩
    · rw [hexpire, if_pos ((nudgeFollows_iff s).mpr hnudge)]
    · rw [hexpire, if_neg fun h => hnone ((nudgeFollows_iff s).mp h)]
  · have hstep := intakeStep_queueRead .entry s
    refine ⟨_, rfl, rfl, ?_⟩
    rw [stalledPoolTest_of_free hstate hfree]
    exact ⟨reads_queueRead .entry s, hstep.only, hstep.walk, rfl, rfl, rfl⟩
  · have hstep := intakeStep_goToPage s
    obtain ⟨hport, hreporting, hnudge⟩ := goToPage_leaves s
    refine ⟨_, rfl, rfl, ?_⟩
    rw [stalledPagesTest_of_room hstate hroom]
    exact ⟨goToPage_of_entered, goToPage_of_first, hstep.only, hstep.walk, hport, hreporting, hnudge⟩
  · have hstay := stalledPoolTest_of_not h
    exact ⟨congrArg (fun t => Host.Outcome.next (issueAccess t)) hstay, hstay⟩
  · have hstay := stalledPagesTest_of_not h
    exact ⟨congrArg (fun t => Host.Outcome.next (issueAccess t)) hstay, hstay⟩

/-! ## Result writes and header updates (R12, R17) -/

/-- The drain's conditions with the channel free: the pool and the waiting reports alone. -/
theorem drained_freed_iff {s : State} (hout : s.channel.outstanding = none) :
    (s.engine.state = .draining ∧ occupied s = 0 ∧ reportHeld s = false ∧ intakeOutstanding s = false)
      ↔ (s.engine.state = .draining ∧ occupied s = 0 ∧ s.channel.queue.any Request.isReport = false) := by
  simp [reportHeld, intakeOutstanding, hout]

/-- The state of a header update's end before the drain is tested: NOTIFY pending as the update carries it (R18). -/
def notified (a : Access) (s : State) : State := { s with port := { s.port with notifyPending := s.port.notifyPending || a.carriesNotify } }

theorem headerDone_eq (a : Access) (s : State) : headerDone a s = drainedTest (notified a s) := by
  unfold headerDone notified
  cases a.carriesNotify <;> simp [setNotify]

/-- Settles O27: a result write hands on to the ESTATE write, a header update sets NOTIFY pending if it carries it. -/
theorem reportWritesComplete : Obligations.ReportWritesComplete := by
  refine ⟨fun s tag i hawaits => ?_, fun s tag a hout htag hreq => ?_⟩
  · obtain ⟨a, -, ha, hdone⟩ := onResponse_awaited resultDone hawaits (sort := fun r => r.resultSlot.isSome) rfl
    have hresult : resultDone a (freed s) = placeRequest (.estate i) (freed s) := by
      simp only [resultDone, ha, Request.resultSlot]
    rw [hresult] at hdone
    exact congrArg Host.Outcome.next hdone
  · obtain ⟨b, hb, -, hdone⟩ := onResponse_awaited headerDone ⟨a, hout, htag, hreq⟩ (sort := fun r => r == .headerUpdate) rfl
    obtain rfl : a = b := Option.some.inj (hout.symm.trans hb)
    rw [headerDone_eq] at hdone
    have hconditions := drained_freed_iff (s := notified a (freed s)) rfl
    refine ⟨_, congrArg Host.Outcome.next hdone, ?_, fun hnot => ?_, fun hdrained => ?_⟩
    · by_cases hdrained : s.engine.state = .draining ∧ occupied s = 0 ∧ s.channel.queue.any Request.isReport = false
      · rw [drainedTest_of_drained (hconditions.mpr hdrained)]
        rfl
      · rw [drainedTest_of_not fun h => hdrained (hconditions.mp h)]
        rfl
    · rw [drainedTest_of_not fun h => hnot (hconditions.mp h)]
      rfl
    · rw [drainedTest_of_drained (hconditions.mpr hdrained)]
      rfl

/-! ## ESTATE writes and releases (R14, R19, R20) -/

/-- Settles O28: the order leaves the pool and its lane, and what R14 and R57 list follows. -/
theorem estateWriteEndsTheOrder : Obligations.EstateWriteEndsTheOrder := by
  intro s tag i o hawaits ho
  obtain ⟨a, -, ha, hdone⟩ := onResponse_awaited estateDone hawaits (sort := fun r => r.estateSlot.isSome) rfl
  have hfinish : estateDone a (freed s) = drainedTest (finishOrder i o (freed s)) := by
    have hslot : slotOrder (freed s) i = some o := ho
    simp only [estateDone, ha, Request.estateSlot, hslot]
  rw [hfinish, finishOrder_eq] at hdone
  refine ⟨requestHeaderUpdate (leaveLane i o (freed s)), congrArg Host.Outcome.next hdone, by simp [leaveLane, leavePool, finishPool, freed],
    ?_, by simp [leaveLane, leavePool, freed], by simp [leaveLane, leavePool, freed],
    by simp [leaveLane, leavePool, countFinished, freed], ?_, headerAsked_requestHeaderUpdate _, by simp [leaveLane, leavePool, freed],
    fun r hr => mem_requestHeaderUpdate hr, ?_, by simp [leaveLane, leavePool, freed], ?_, by simp [leaveLane, leavePool, freed]⟩
  · simp only [requestHeaderUpdate_frame]
    rfl
  · rw [(requestHeaderUpdate_marks _).1]
    rfl
  · simp [SamePort, leaveLane, leavePool, freed]
  · simp [SameArraySide, leaveLane, leavePool, freed]

/-- Settles O29: the oldest page record is released once it is left and finished, and the next is tested at the end of its write. -/
theorem pagesAreReleasedInOrder : Obligations.PagesAreReleasedInOrder := by
  refine ⟨fun s p rest hrecords => ⟨fun hdue => ⟨rfl, releaseTest_of_due ((releaseDue_iff s hrecords).mpr hdue)⟩, fun hnot => ?_⟩,
    fun s hrecords => ?_, fun s tag hawaits => ?_⟩
  · have hstay := releaseTest_of_not fun h => hnot ((releaseDue_iff s hrecords).mp h)
    exact ⟨congrArg (fun t => Host.Outcome.next (issueAccess t)) hstay, hstay⟩
  · have hstay : releaseTest s = s := releaseTest_of_not (by simp [releaseDue, hrecords])
    exact ⟨congrArg (fun t => Host.Outcome.next (issueAccess t)) hstay, hstay⟩
  · obtain ⟨a, -, -, hdone⟩ := onResponse_awaited (fun _ => releaseDone) hawaits (sort := fun r => r == .release) rfl
    obtain ⟨howed, hprogress⟩ := requestHeaderUpdate_marks (dropOldest (freed s))
    refine ⟨requestHeaderUpdate (dropOldest (freed s)), congrArg Host.Outcome.next hdone, by simp [dropOldest, freed], hprogress,
      by simp [dropOldest, freed], howed, headerAsked_requestHeaderUpdate _, by simp [freed], fun r hr => mem_requestHeaderUpdate hr, ?_, ?_, ?_,
      by simp [freed]⟩
    · simp [SamePort, freed]
    · simp [SameOrders, freed]
    · simp [SameArraySide, freed]

end Sys2Proof.Safety
end

section
/-! PROOFS. The hand-over of k at every bank (R134, R151), and the resets that rest on it: power-on reset and engine reset (R194). -/

namespace Sys2Proof.Safety

open Sys2Proof.Machine

/-! ## Folds over the banks -/

/-- Where each step of a walk over the banks leaves what is seen of other banks, bank `b` is as the walk found it at its turn and stays
as its step made it. -/
theorem foldl_banks_turn {β : Type} {b : BankId} (π : State → β) (Q : State → Prop) {f : State → BankId → State}
    (hother : ∀ t c, c ≠ b → π (f t c) = π t) (hQ : ∀ t c, Q t → Q (f t c)) {l : List BankId} (hnodup : l.Nodup) (hmem : b ∈ l) (s : State)
    (hs : Q s) : ∃ t, Q t ∧ π t = π s ∧ π (l.foldl f s) = π (f t b) := by
  have hrest : ∀ (m : List BankId) (t : State), b ∉ m → π (m.foldl f t) = π t := fun m => by
    induction m with
    | nil => exact fun _ _ => rfl
    | cons d m ihm =>
      intro t hd
      obtain ⟨hne, hm⟩ := not_or.mp fun hmem => hd (List.mem_cons.mpr hmem)
      rw [List.foldl_cons, ihm _ hm, hother t d (Ne.symm hne)]
  induction l generalizing s with
  | nil => simp at hmem
  | cons c l ih =>
    obtain ⟨hc, hl⟩ := List.nodup_cons.mp hnodup
    by_cases hb : b = c
    · subst hb
      exact ⟨s, hs, rfl, hrest l _ hc⟩
    · obtain ⟨t, ht, hsame, hturn⟩ := ih hl ((List.mem_cons.mp hmem).resolve_left hb) (f s c) (hQ s c hs)
      exact ⟨t, ht, hsame.trans (hother s c (Ne.symm hb)), hturn⟩

theorem nodup_allBanks : allBanks.Nodup := by decide

/-! ## One bank's hand-over -/

theorem HandedK.congr {s t : State} {b : BankId} {n : Nat} {r : RefreshBank} (h : HandedK t b n r)
    (haccount : t.refresh.banks[b] = s.refresh.banks[b]) (hclass : t.refresh.tempClass = s.refresh.tempClass)
    (hstate : t.banks[b].state = s.banks[b].state) : HandedK s b n r := by
  have hawake : bankAwake t.banks[b] = bankAwake s.banks[b] := by rw [bankAwake, hstate]; rfl
  unfold HandedK at h ⊢
  rwa [haccount, hclass, hstate, hawake] at h

/-- The rule of R134 as the Refresh Unit applies it. -/
theorem handedK_refreshWithK (s : State) (b : BankId) (n : Nat) :
    HandedK s b n (refreshWithK s.refresh.tempClass s.banks[b] n s.refresh.banks[b]) := by
  refine ⟨fun hn => if_pos hn, fun hn h0 => ?_, fun hn h0 => ?_⟩
  · rw [refreshWithK, if_neg hn, if_pos h0]
  · rw [refreshWithK, if_neg hn, if_neg h0]
    cases bankAwake s.banks[b] <;> rfl

theorem HandedK.k_eq {s : State} {b : BankId} {n : Nat} {r : RefreshBank} (h : HandedK s b n r) : r.k = n := by
  obtain ⟨hsame, hzero, hnew⟩ := h
  by_cases hn : n = s.refresh.banks[b].k
  · rw [hsame hn, hn]
  · by_cases h0 : n = 0
    · rw [hzero hn h0, h0]
    · rw [hnew hn h0]

theorem HandedK.of_same {s : State} {b : BankId} {n : Nat} (h : s.refresh.banks[b].k = n) : HandedK s b n s.refresh.banks[b] :=
  ⟨fun _ => rfl, fun hn => absurd h.symm hn, fun hn => absurd h.symm hn⟩

/-- With no request waiting, nothing due and no pull-in the arbiter leaves the bank as it is (R118). -/
theorem decide1_quiet {k : Bank} (h : k.requests = []) (g : Option RowGroup) : decide1 (.noneDue, false) g k = k := by
  unfold decide1
  split
  · rfl
  · cases k.state with
    | idle => exact decideIdle_no_request false g h
    | opened => exact (decideOpen_no_hit (by decide) (rowHits_of_no_request h)).trans (if_neg (by simp [h]))
    | _ => rfl

/-- The arbiter of a bank that nothing waits for may only start a close or a refresh (R118). -/
theorem decide1_of_no_request {k : Bank} (h : k.requests = []) (i : RefreshLevel × Bool) (g : Option RowGroup) :
    decide1 i g k = k ∨ decide1 i g k = startClose k ∨ decide1 i g k = startRefresh g k := by
  obtain ⟨level, pullIn⟩ := i
  unfold decide1
  split
  · exact .inl rfl
  · cases k.state with
    | idle =>
      cases level with
      | noneDue =>
        dsimp only
        rw [decideIdle_no_request pullIn g h]
        cases pullIn
        · exact .inl rfl
        · exact .inr (.inr rfl)
      | due => exact .inr (.inr rfl)
      | urgent => exact .inr (.inr rfl)
    | opened =>
      cases level with
      | urgent => exact .inr (.inl rfl)
      | due => exact .inr (.inl ((decideOpen_no_hit (level := .due) (by decide) (rowHits_of_no_request h)).trans (if_pos (.inr rfl))))
      | noneDue => exact .inl ((decideOpen_no_hit (level := .noneDue) (by decide) (rowHits_of_no_request h)).trans (if_neg (by simp [h])))
    | _ => exact .inl rfl

/-- A bank without waiting requests decides nothing new at a hand-over that retains no region where none was retained. -/
theorem handK_banks_of_quiet {b : BankId} {s : State} (hreq : s.banks[b].requests = [])
    (hk : s.refresh.banks[b].k = 0 → retainedCount s b = 0) : (handK b s).banks = s.banks := by
  unfold handK
  dsimp only
  by_cases hn : retainedCount s b = s.refresh.banks[b].k
  · rw [refreshWithK, if_pos hn, setRefresh_self, indicationChanged, if_pos rfl]
  · by_cases h0 : retainedCount s b = 0
    · rw [refreshWithK, if_neg hn, if_pos h0, indicationChanged]
      split
      · rfl
      · have hquiet : indication (setRefresh b { s.refresh.banks[b] with
            account := 0, k := 0, timer := none, void := s.refresh.banks[b].void || s.banks[b].state == .refreshing } s) b
            = (.noneDue, false) := by
          simp only [indication, setRefresh_banks, getElem_set_same]
          rfl
        rw [bankDecide, hquiet, decide1_quiet (by exact hreq), setBank_self]
        rfl
    · have hpull : ∀ r : RefreshBank, r.k ≠ 0 → pullInAllowed r = decide (Config.accountFloor < r.account) := fun r hr => by
        rw [pullInAllowed, decide_eq_true (Nat.pos_of_ne_zero hr), Bool.true_and]
      have hsame : indication (setRefresh b (refreshWithK s.refresh.tempClass s.banks[b] (retainedCount s b) s.refresh.banks[b]) s) b
          = indication s b := by
        obtain ⟨-, -, hnew⟩ := handedK_refreshWithK s b (retainedCount s b)
        simp only [indication, setRefresh_banks, getElem_set_same]
        rw [hnew hn h0, hpull _ h0, hpull _ fun hz => h0 (hk hz)]
        rfl
      rw [indicationChanged, if_pos hsame]
      rfl

/-- The hand-over sets the account and may let the arbiter of the bank decide. -/
theorem handK_banks (b : BankId) (s : State) : (handK b s).banks = s.banks
    ∨ ∃ i g, (handK b s).banks = s.banks.set b (decide1 i g s.banks[b]) := by
  unfold handK
  dsimp only
  unfold indicationChanged
  split
  · exact .inl rfl
  · exact .inr ⟨_, _, rfl⟩

theorem handK_bank_at_other (b c : BankId) (s : State) (h : c ≠ b) : (handK b s).banks[c] = s.banks[c] := by
  obtain hsame | ⟨i, g, hset⟩ := handK_banks b s
  · rw [hsame]
  · rw [hset]
    exact getElem_set_other _ _ _ _ h

/-- What a bank is but for its state and its turn. -/
def bankOwn (k : Bank) : Option (BitVec 14) × List BankRequest × Option BankRequest × Nat × Bool × Bool :=
  (k.openRow, k.requests, k.inHand, k.streak, k.sleepHold, k.standDown)

/-- A bank without waiting requests may start a close or a refresh at a hand-over, and no more. -/
theorem handK_bankOwn {b : BankId} {s : State} (hreq : s.banks[b].requests = []) :
    bankOwn (handK b s).banks[b] = bankOwn s.banks[b] := by
  obtain hsame | ⟨i, g, hset⟩ := handK_banks b s
  · rw [hsame]
  · rw [hset, getElem_set_same]
    obtain hk | hk | hk := decide1_of_no_request hreq i g <;> rw [hk] <;> rfl

/-! ## The hand-over at every bank -/

/-- At a bank's turn its record, its account and the regions are as the hand-over began. -/
theorem handAllK_turn (s : State) (b : BankId) : ∃ t, t.regions = s.regions ∧ t.refresh.tempClass = s.refresh.tempClass
    ∧ t.banks[b] = s.banks[b] ∧ t.refresh.banks[b] = s.refresh.banks[b]
    ∧ (handAllK s).banks[b] = (handK b t).banks[b] ∧ (handAllK s).refresh.banks[b] = (handK b t).refresh.banks[b] := by
  obtain ⟨t, ⟨hregions, hclass⟩, hsame, hturn⟩ := foldl_banks_turn (b := b) (fun t => (t.banks[b], t.refresh.banks[b]))
    (fun t => t.regions = s.regions ∧ t.refresh.tempClass = s.refresh.tempClass) (f := fun t c => handK c t)
    (fun t c hc => by simp only [handK_bank_at_other c b t hc.symm, handK_bank_other c b t hc.symm])
    (fun t c ht => by simpa using ht) nodup_allBanks (mem_allBanks b) s ⟨rfl, rfl⟩
  simp only [Prod.mk.injEq] at hsame hturn
  obtain ⟨hbank, haccount⟩ := hsame
  obtain ⟨hbank', haccount'⟩ := hturn
  rw [handAllK]
  exact ⟨t, hregions, hclass, hbank, haccount, hbank', haccount'⟩

/-- Each bank's account is handed the count of its retained regions (R151, R134). -/
theorem handAllK_refresh (s : State) (b : BankId) : (handAllK s).refresh.banks[b] =
    refreshWithK s.refresh.tempClass s.banks[b] (retainedCount s b) s.refresh.banks[b] := by
  obtain ⟨t, hregions, hclass, hbank, haccount, -, hturn⟩ := handAllK_turn s b
  rw [hturn, handK_bank_same, hclass, hbank, haccount, retainedCount_congr hregions]

theorem handAllK_handedK (s : State) (b : BankId) : HandedK s b (retainedCount (handAllK s) b) (handAllK s).refresh.banks[b] := by
  rw [handAllK_refresh, retainedCount_congr (s := s) (by simp)]
  exact handedK_refreshWithK s b _

theorem handAllK_bankOwn {s : State} {b : BankId} (hreq : s.banks[b].requests = []) :
    bankOwn (handAllK s).banks[b] = bankOwn s.banks[b] := by
  obtain ⟨t, -, -, hbank, -, hturn, -⟩ := handAllK_turn s b
  rw [hturn, ← hbank]
  exact handK_bankOwn (hbank ▸ hreq)

theorem handAllK_bank_of_quiet {s : State} {b : BankId} (hreq : s.banks[b].requests = [])
    (hk : s.refresh.banks[b].k = 0 → retainedCount s b = 0) : (handAllK s).banks[b] = s.banks[b] := by
  obtain ⟨t, hregions, -, hbank, haccount, hturn, -⟩ := handAllK_turn s b
  rw [hturn, handK_banks_of_quiet (hbank ▸ hreq) (by rwa [haccount, retainedCount_congr hregions]), hbank]

/-! ## Every ARMING region drops (R165) -/

/-- Every ARMING region goes to DROPPED, before k is handed over. -/
def disarmed (s : State) : State := mapRegions (fun _ r => if r.state == .arming then Region.become .dropped else r) s

theorem disarmed_frame (s : State) : (disarmed s).banks = s.banks ∧ (disarmed s).refresh = s.refresh := by simp [disarmed]

theorem disarmed_regions (s : State) (r : RegionId) : (disarmed s).regions[r] =
    if s.regions[r].state = .arming then { state := .dropped, owner := none, sweep := 0 } else s.regions[r] := by
  simp only [disarmed, mapRegions_get, beq_iff_eq]
  rfl

theorem dropAllArming_cases (s : State) : dropAllArming s = handAllK (disarmed s)
    ∨ (dropAllArming s = s ∧ ∀ r : RegionId, s.regions[r].state ≠ .arming) := by
  unfold dropAllArming
  split
  · exact .inl rfl
  · rename_i hnone
    exact .inr ⟨rfl, fun r h => hnone (List.any_eq_true.mpr ⟨r, List.mem_finRange r, beq_iff_eq.mpr h⟩)⟩

theorem dropAllArming_regions (s : State) (r : RegionId) : (dropAllArming s).regions[r] =
    if s.regions[r].state = .arming then { state := .dropped, owner := none, sweep := 0 } else s.regions[r] := by
  obtain h | ⟨h, hnone⟩ := dropAllArming_cases s
  · rw [h, ← disarmed_regions]
    simp
  · rw [h, if_neg (hnone r)]

/-- A region that drops is retained no more; every other is as it was. -/
theorem dropAllArming_retained (s : State) (r : RegionId) : (regionState (dropAllArming s) r).retained =
    ((regionState s r).retained && decide (regionState s r ≠ .arming)) := by
  rw [regionState, dropAllArming_regions]
  split
  · rename_i h
    have harming : regionState s r = .arming := h
    rw [harming]
    rfl
  · rename_i h
    have hother : regionState s r ≠ .arming := h
    rw [decide_eq_true hother, Bool.and_true]
    rfl

theorem dropAllArming_count_zero {s : State} {b : BankId} (h : retainedCount s b = 0) : retainedCount (dropAllArming s) b = 0 := by
  simp only [retainedCount, List.countP_eq_zero, dropAllArming_retained] at h ⊢
  intro g hg
  simp [h g hg]

theorem dropAllArming_count_same {s : State} {b : BankId} (h : ∀ g, regionState s (regionOf b g) ≠ .arming) :
    retainedCount (dropAllArming s) b = retainedCount s b :=
  retainedCount_eq_of_retained fun g => by rw [dropAllArming_retained, decide_eq_true (h g), Bool.and_true]

/-- The lower k of each bank is handed over (R151). -/
theorem dropAllArming_handedK {s : State} {b : BankId} (hk : s.refresh.banks[b].k = retainedCount s b) :
    HandedK s b (retainedCount (dropAllArming s) b) (dropAllArming s).refresh.banks[b] := by
  obtain h | ⟨h, -⟩ := dropAllArming_cases s
  · rw [h]
    obtain ⟨hbanks, hrefresh⟩ := disarmed_frame s
    exact (handAllK_handedK (disarmed s) b).congr (by rw [hrefresh]) (by rw [hrefresh]) (by rw [hbanks])
  · rw [h]
    exact .of_same hk

theorem dropAllArming_bank {s : State} {b : BankId} (hreq : s.banks[b].requests = []) (hk : s.refresh.banks[b].k = retainedCount s b) :
    (dropAllArming s).banks[b] = s.banks[b] := by
  obtain h | ⟨h, -⟩ := dropAllArming_cases s
  · rw [h]
    obtain ⟨hbanks, hrefresh⟩ := disarmed_frame s
    rw [handAllK_bank_of_quiet (by rwa [hbanks]) fun hzero => ?_, hbanks]
    rw [hrefresh] at hzero
    have hcount : retainedCount (disarmed s) b = retainedCount (dropAllArming s) b := by
      rw [h]
      exact (retainedCount_congr (by simp) b).symm
    rw [hcount]
    exact dropAllArming_count_zero (hk.symm.trans hzero)
  · rw [h]

theorem dropAllArming_bankOwn {s : State} {b : BankId} (hreq : s.banks[b].requests = []) :
    bankOwn (dropAllArming s).banks[b] = bankOwn s.banks[b] := by
  obtain h | ⟨h, -⟩ := dropAllArming_cases s
  · obtain ⟨hbanks, -⟩ := disarmed_frame s
    rw [h, handAllK_bankOwn (by rwa [hbanks]), hbanks]
  · rw [h]

/-! ## The resets (R194) -/

theorem resetBlocks_eq (s : State) : resetBlocks s = dropAllArming (clearBlocks s) := rfl

theorem clearBlocks_bank (s : State) (b : BankId) : (clearBlocks s).banks[b] = abandonRequests s.banks[b] := by simp [clearBlocks]

/-- What both resets make of the order side, the channel and the domains. -/
theorem resetBlocks_blocks (s : State) : (resetBlocks s).engine = { s.engine with state := .disabled }
    ∧ (resetBlocks s).channel = { queue := [], outstanding := none, nextTag := s.channel.nextTag }
    ∧ (resetBlocks s).reporting = Reporting.reset ∧ (resetBlocks s).intake = Intake.reset ∧ (resetBlocks s).pool = Pool.reset
    ∧ (∀ l, laneEntry (resetBlocks s) l = none) ∧ (resetBlocks s).strokes = StrokeEngine.reset
    ∧ (resetBlocks s).domains = { s.domains with requests := [], serving := s.domains.serving.map fun v => { v with owner := none } } := by
  rw [resetBlocks_eq]
  simp [clearBlocks, idleChannel, abandonRamps, laneEntry]

section Reset

variable {s : State} {b : BankId}

theorem resetBlocks_regions (s : State) (r : RegionId) : (resetBlocks s).regions[r] =
    if s.regions[r].state = .arming then { state := .dropped, owner := none, sweep := 0 } else s.regions[r] :=
  dropAllArming_regions (clearBlocks s) r

theorem resetBlocks_handedK (hk : s.refresh.banks[b].k = retainedCount s b) :
    HandedK s b (retainedCount (resetBlocks s) b) (resetBlocks s).refresh.banks[b] :=
  (dropAllArming_handedK (s := clearBlocks s) hk).congr rfl rfl (by rw [clearBlocks_bank]; rfl)

theorem resetBlocks_bank (hk : s.refresh.banks[b].k = retainedCount s b) : (resetBlocks s).banks[b] =
    { s.banks[b] with requests := [], inHand := s.banks[b].inHand.map fun q => { q with stroke := none } } :=
  (dropAllArming_bank (s := clearBlocks s) (by rw [clearBlocks_bank]; rfl) hk).trans (clearBlocks_bank s b)

theorem resetBlocks_bankOwn : bankOwn (resetBlocks s).banks[b] = bankOwn (abandonRequests s.banks[b]) :=
  (dropAllArming_bankOwn (s := clearBlocks s) (by rw [clearBlocks_bank]; rfl)).trans (congrArg bankOwn (clearBlocks_bank s b))

/-- The account of a bank with no ARMING region stays. -/
theorem resetBlocks_account (hk : s.refresh.banks[b].k = retainedCount s b) (hnone : ∀ g, regionState s (regionOf b g) ≠ .arming) :
    (resetBlocks s).refresh.banks[b] = s.refresh.banks[b] := by
  obtain ⟨hsame, -⟩ := resetBlocks_handedK hk
  exact hsame ((dropAllArming_count_same (s := clearBlocks s) hnone).trans hk.symm)

end Reset

/-- No entry of an empty table is busy. -/
theorem busy_of_empty {s : State} (h : ∀ l, laneEntry s l = none) : busy s = false := by
  rw [busy, List.any_eq_false]
  intro l _
  simp [laneLife, laneOrder, h]

/-- Settles O5: an engine reset clears the order side, drops the ARMING regions and hands their banks the lower k. -/
theorem engineResetEffect : Obligations.EngineResetEffect := by
  intro s v hheld hlegal
  have hk : ∀ b : BankId, s.refresh.banks[b].k = retainedCount s b := fun b => by
    obtain ⟨-, -, hk, -⟩ := hlegal b
    exact hk
  have hreset : controlReset (asReset v) = true := by simp [controlReset, asReset]
  have hexec : exec (.engineReset v) s = .next (engineReset s) := by
    have hwrite : writeControl (asReset v) s = engineReset s := by
      rw [writeControl, if_neg (by simp [hheld]), if_pos hreset]
    exact congrArg Host.Outcome.next hwrite
  obtain ⟨hengine, hchannel, hreporting, hintake, hpool, htable, hstrokes, hdomains⟩ := resetBlocks_blocks { s with port := engineResetPort s.port }
  have hbusy := busy_of_empty htable
  refine ⟨_, hexec, ?_⟩
  rw [engineReset]
  refine ⟨by simp [engineResetPort], by simpa using hengine, by simpa using hchannel, by simpa using hreporting, by simpa using hintake,
    by simpa using hpool, fun l => (laneEntry_congr (by simp) l).trans (htable l), by simpa using hstrokes, fun b => ?_, fun r => ?_, fun b => ?_,
    fun b hnone => ?_, by simp, by simp, by simp, by simpa using hdomains, ?_, by simp, by simp⟩
  · simp only [idleRestart_frame]
    exact resetBlocks_bank (s := { s with port := engineResetPort s.port }) (hk b)
  · simp only [idleRestart_frame]
    exact resetBlocks_regions _ r
  · have hhanded := resetBlocks_handedK (s := { s with port := engineResetPort s.port }) (b := b) (hk b)
    rw [retainedCount_congr (t := idleRestart _) (s := resetBlocks { s with port := engineResetPort s.port }) (by simp)]
    simp only [idleRestart_frame]
    exact ⟨hhanded.k_eq, hhanded.congr rfl rfl rfl⟩
  · simp only [idleRestart_frame]
    exact resetBlocks_account (s := { s with port := engineResetPort s.port }) (hk b) hnone
  · unfold idleRestart
    simp only [resetBlocks_frame, hbusy, Bool.not_false, Bool.and_true, beq_iff_eq]
    split
    · rfl
    · simp

/-- Settles O3: power-on reset puts every block at its reset value. -/
theorem powerOnResetValues : Obligations.PowerOnResetValues := by
  have hwindow : ∀ n, windowWord State.reset n = resetWord n := fun n => by
    rw [windowWord_of_released rfl]
    match n with
    | 0 | 1 | 2 | 3 | 4 | 5 => decide
    | _ + 6 => rfl
  obtain ⟨hcontrol, hother⟩ := readRegister_reset hwindow
  refine ⟨⟨hcontrol, hother, by decide, rfl⟩, fun s => ⟨_, rfl, rfl, rfl, rfl, rfl, rfl, rfl, fun i => ?_, fun l => ?_, rfl, rfl, rfl, rfl,
    fun l => ?_, fun l => ?_, rfl, fun b => ?_, rfl, fun b => ?_, fun b => ?_, rfl, rfl, rfl, fun r => ?_, fun d => ?_, rfl, rfl, rfl, rfl,
    fun a => rfl, fun n => rfl⟩⟩
  · simp [slotOrder, State.reset, Pool.reset]
  · simp [State.reset, Pool.reset]
  · simp [laneEntry, State.reset]
  · simp [State.reset, StrokeEngine.reset]
  · simp [State.reset, StrokeEngine.reset]
  · simp [State.reset, Bank.reset]
  · simp [State.reset, RefreshUnit.reset]
  · simp [State.reset, Region.reset]
  · simp [State.reset, DomainControl.reset]

end Sys2Proof.Safety
end

section
/-! PROOFS. Sleep entry and wake, bank by bank (R127, R128, R143, R174 to R177), and the pin reset that forces sleep (R194). -/

namespace Sys2Proof.Safety

open Sys2Proof.Machine

/-! ## One bank's sleep entry (R127, R143) -/

/-- A bank that a sleep entry reaches (R127). -/
def sleptBank (k : Bank) : Bank :=
  match k.state with
  | .unpowered | .asleep => k
  | .idle => asleepBank k
  | .opened => startClose { k with sleepHold := true }
  | .opening | .accessing | .closing | .refreshing => { k with sleepHold := true }

/-- The account of a bank that a sleep entry reaches (R143). -/
def sleptAccount (k : Bank) (r : RefreshBank) : RefreshBank := if k.state = .idle then refreshAtRest r else r

/-- A sleep entry at a bank but for the reports that follow it. -/
def putToSleep (b : BankId) (s : State) : State :=
  setRefresh b (sleptAccount s.banks[b] s.refresh.banks[b]) (setBank b (sleptBank s.banks[b]) s)

theorem sleptBank_keeps (k : Bank) : (sleptBank k).requests = k.requests ∧ (sleptBank k).inHand = k.inHand
    ∧ (sleptBank k).standDown = k.standDown := by
  unfold sleptBank
  split <;> exact ⟨rfl, rfl, rfl⟩

/-- A bank still awake holds the sleep. -/
theorem sleptBank_hold {k : Bank} (h : bankAwake (sleptBank k) = true) : (sleptBank k).sleepHold = true := by
  unfold sleptBank at h ⊢
  split at h
  · rename_i hstate
    simp [bankAwake, hstate] at h
  · rename_i hstate
    simp [bankAwake, hstate] at h
  · simp [bankAwake, asleepBank] at h
  · rfl
  all_goals rfl

theorem sleptBank_of_rest {k : Bank} (h : bankAwake k = false) : sleptBank k = k := by
  have hstate : k.state = .unpowered ∨ k.state = .asleep := by
    rw [bankAwake, Bool.and_eq_false_iff] at h
    exact h.imp (by simp) (by simp)
  unfold sleptBank
  rcases hstate with hstate | hstate <;> simp only [hstate]

theorem sleptAccount_of_rest {k : Bank} (h : bankAwake k = false) (r : RefreshBank) : sleptAccount k r = r :=
  if_neg fun hidle => by simp [bankAwake, hidle] at h

/-- A bank that has slept rests stood down only where it did before. -/
theorem sleptBank_rests {k : Bank} (h : RestsStoodDown (sleptBank k)) : RestsStoodDown k := by
  obtain ⟨hdown, hrest⟩ := h
  have hdown' : k.standDown = true := (sleptBank_keeps k).2.2 ▸ hdown
  refine ⟨hdown', ?_⟩
  unfold sleptBank at hrest
  split at hrest
  · simp_all
  · simp_all
  · rename_i hstate
    exact .inl hstate
  · simp [startClose] at hrest
  all_goals simp_all

theorem standDownReported_putToSleep {s : State} (b : BankId) (h : StandDownReported s) : StandDownReported (putToSleep b s) := by
  have hrests : RestsKept s (putToSleep b s) :=
    RestsKept.trans (t := setBank b (sleptBank s.banks[b]) s) (.setBank sleptBank_rests) (.of_banks rfl)
  exact standDownReported_of_rests (s := s) rfl hrests h

theorem putToSleep_of_rest {s : State} {b : BankId} (h : bankAwake s.banks[b] = false) : putToSleep b s = s := by
  rw [putToSleep, sleptBank_of_rest h, setBank_self, sleptAccount_of_rest h, setRefresh_self]

theorem sleepEntryAt_of_rest {s : State} {b : BankId} (h : bankAwake s.banks[b] = false) : sleepEntryAt b s = s := by
  have hstate : s.banks[b].state = .unpowered ∨ s.banks[b].state = .asleep := by
    rw [bankAwake, Bool.and_eq_false_iff] at h
    exact h.imp (by simp) (by simp)
  unfold sleepEntryAt
  rcases hstate with hstate | hstate <;> simp only [hstate]

/-- A report that has been made before changes nothing (R126). -/
theorem reportStoodDown_of_reported {b : BankId} {s : State} (h : ∀ v, s.domains.serving = some v → v.phase = .standingDown →
      bankDomain b = v.domain → ¬(v.lowerDown = true ∧ v.upperDown = true) ∧ (if b = lowerBank v.domain then v.lowerDown else v.upperDown) = true) :
    reportStoodDown b s = s := by
  unfold reportStoodDown
  cases hserving : s.domains.serving with
  | none => rfl
  | some v =>
    dsimp only
    split
    · rename_i hphase
      simp only [Bool.and_eq_true, beq_iff_eq] at hphase
      obtain ⟨hnot, hflag⟩ := h v hserving hphase.1 hphase.2
      have hsame : (if b == lowerBank v.domain then { v with lowerDown := true } else { v with upperDown := true }) = v := by
        simp only [beq_iff_eq]
        by_cases hb : b = lowerBank v.domain
        · rw [if_pos hb] at hflag ⊢
          rw [← hflag]
        · rw [if_neg hb] at hflag ⊢
          rw [← hflag]
      rw [hsame, ← hserving]
      refine (?_ : drainTest s = s)
      unfold drainTest
      rw [hserving]
      exact if_neg (by simpa [hphase.1] using hnot)
    · rfl

/-- A sleep entry puts the bank to sleep, and at an IDLE bank the end of the sleep entry is tested (R127, R175). -/
theorem sleepEntryAt_cases {s : State} (h : StandDownReported s) (b : BankId) :
    sleepEntryAt b s = putToSleep b s ∨ sleepEntryAt b s = sleepEntryTest (putToSleep b s) := by
  by_cases hawake : bankAwake s.banks[b] = true
  · have hother : s.banks[b].state ≠ .idle → sleptAccount s.banks[b] s.refresh.banks[b] = s.refresh.banks[b] := fun hne => if_neg hne
    cases hstate : s.banks[b].state with
    | unpowered | asleep => exact absurd hawake (by rw [bankAwake, hstate]; decide)
    | idle =>
      refine .inr ?_
      have hslept : putToSleep b s = setRefresh b (refreshAtRest s.refresh.banks[b]) (setBank b (asleepBank s.banks[b]) s) := by
        simp only [putToSleep, sleptAccount, sleptBank, hstate, if_true]
      have henter : sleepEntryAt b s = enterAsleep b s := by simp only [sleepEntryAt, hstate]
      rw [henter, enterAsleep, ← hslept]
      split
      · rename_i hdown
        refine reportStoodDown_of_reported fun v hv hphase hdomain => ?_
        have hserving : s.domains.serving = some v := by simpa [hslept] using hv
        obtain ⟨hboth, hreported⟩ := h v hserving hphase
        exact ⟨hboth, hreported b hdomain hdown (.inl hstate)⟩
      · rfl
    | opened | opening | accessing | closing | refreshing =>
      refine .inl ?_
      have hself : setRefresh b s.refresh.banks[b] (setBank b (sleptBank s.banks[b]) s) = setBank b (sleptBank s.banks[b]) s :=
        setRefresh_self (setBank b (sleptBank s.banks[b]) s) b
      rw [putToSleep, hother (by rw [hstate]; decide), hself]
      simp only [sleepEntryAt, sleptBank, hstate]
  · rw [Bool.not_eq_true] at hawake
    rw [sleepEntryAt_of_rest hawake, putToSleep_of_rest hawake]
    exact .inl rfl

/-! ## The end of the sleep entry (R175, R176) -/

theorem sleepEntryTest_of_asleep {s : State} (hmode : s.arrayMode.mode = .enteringSleep) (hasleep : ∀ b : BankId, bankAwake s.banks[b] = false) :
    sleepEntryTest s = endSleepEntry s := if_pos (by simp [hmode, (allAsleep_iff s).mpr hasleep])

theorem sleepEntryTest_of_not {s : State} (h : s.arrayMode.mode ≠ .enteringSleep ∨ ∃ b : BankId, bankAwake s.banks[b] = true) :
    sleepEntryTest s = s := by
  refine if_neg fun hboth => ?_
  simp only [Bool.and_eq_true, beq_iff_eq] at hboth
  rcases h with hmode | ⟨b, hb⟩
  · exact hmode hboth.1
  · rw [(allAsleep_iff s).mp hboth.2 b] at hb
    cases hb

/-- The array mode at the end of the sleep entry: WAKING where a wake is demanded and no sleep is forced, else ASLEEP (R176). -/
theorem endSleepEntry_arrayMode (s : State) : (endSleepEntry s).arrayMode =
    if wakeDemand s = true ∧ s.arrayMode.forcedSleep = false then { s.arrayMode with mode := .waking, wakeTimer := some 150 }
    else { s.arrayMode with mode := .asleep } := by
  unfold endSleepEntry
  simp only [Bool.and_eq_true, Bool.not_eq_true']
  split
  · simp [startWake]
    rfl
  · simp

theorem headerAsked_endSleepEntry (s : State) : HeaderAsked (endSleepEntry s) := by
  unfold endSleepEntry
  split <;> exact headerAsked_requestHeaderUpdate _

theorem endSleepEntry_mode_ne (s : State) : (endSleepEntry s).arrayMode.mode ≠ .enteringSleep := by
  rw [endSleepEntry_arrayMode]
  split <;> simp

theorem headerAsked_sleepEntryTest {s : State} (h : HeaderAsked s) : HeaderAsked (sleepEntryTest s) := by
  unfold sleepEntryTest
  split
  · exact headerAsked_endSleepEntry s
  · exact h

/-- The state that the sleep entries have reached, `t` but for the end of the sleep entry where it has come (R175). -/
def SleepsTo (t u : State) : Prop :=
  u = t ∨ (t.arrayMode.mode = .enteringSleep ∧ (∀ b : BankId, bankAwake t.banks[b] = false) ∧ u = endSleepEntry t)

theorem sleepsTo_test (t : State) : SleepsTo t (sleepEntryTest t) := by
  by_cases h : t.arrayMode.mode = .enteringSleep ∧ ∀ b : BankId, bankAwake t.banks[b] = false
  · exact .inr ⟨h.1, h.2, sleepEntryTest_of_asleep h.1 h.2⟩
  · refine .inl (sleepEntryTest_of_not (Classical.byContradiction fun hno => ?_))
    obtain ⟨hmode, hawake⟩ := not_or.mp hno
    exact h ⟨Decidable.not_not.mp hmode, fun b => Bool.eq_false_iff.mpr fun hb => hawake ⟨b, hb⟩⟩

/-- Once the sleep entry has ended no bank is awake, so what further sleep entries reach stays as it is. -/
theorem SleepsTo.step {t u : State} (h : SleepsTo t u) (hreported : StandDownReported t) (b : BankId) :
    SleepsTo (putToSleep b t) (sleepEntryAt b u) := by
  rcases h with rfl | ⟨hmode, hasleep, rfl⟩
  · obtain hcase | hcase := sleepEntryAt_cases hreported b
    · exact .inl hcase
    · rw [hcase]
      exact sleepsTo_test _
  · rw [putToSleep_of_rest (hasleep b), sleepEntryAt_of_rest (by simpa using hasleep b)]
    exact .inr ⟨hmode, hasleep, rfl⟩

theorem SleepsTo.test_eq {t u : State} (h : SleepsTo t u) : sleepEntryTest u = sleepEntryTest t := by
  rcases h with rfl | ⟨hmode, hasleep, rfl⟩
  · rfl
  · rw [sleepEntryTest_of_asleep hmode hasleep, sleepEntryTest_of_not (.inl (endSleepEntry_mode_ne t))]

theorem SleepsTo.foldl {t u : State} (h : SleepsTo t u) (hreported : StandDownReported t) (l : List BankId) :
    SleepsTo (l.foldl (fun t b => putToSleep b t) t) (l.foldl (fun t b => sleepEntryAt b t) u) := by
  induction l generalizing t u with
  | nil => exact h
  | cons b l ih => exact ih (h.step hreported b) (standDownReported_putToSleep b hreported)

/-! ## The sleep entry of the array (R175) -/

/-- ENTERING_SLEEP, with every bank reached by its sleep entry. -/
def sleeping (s : State) : State :=
  allBanks.foldl (fun t b => putToSleep b t)
    (requestHeaderUpdate { s with arrayMode := { s.arrayMode with mode := .enteringSleep, idleTimer := none } })

theorem startSleepEntry_eq {s : State} (h : StandDownReported s) : startSleepEntry s = sleepEntryTest (sleeping s) := by
  have hreported : StandDownReported (requestHeaderUpdate { s with arrayMode := { s.arrayMode with mode := .enteringSleep, idleTimer := none } }) :=
    standDownReported_of_rests (by simp) (.of_banks (by simp)) h
  exact (SleepsTo.foldl (.inl rfl) hreported allBanks).test_eq

theorem sleeping_turn (s : State) (b : BankId) :
    (sleeping s).banks[b] = sleptBank s.banks[b] ∧ (sleeping s).refresh.banks[b] = sleptAccount s.banks[b] s.refresh.banks[b] := by
  obtain ⟨t, -, hsame, hturn⟩ := foldl_banks_turn (b := b) (fun t => (t.banks[b], t.refresh.banks[b])) (fun _ => True)
    (f := fun t c => putToSleep c t) (fun t c hc => by
      have hbank : (putToSleep c t).banks[b] = t.banks[b] := getElem_set_other t.banks c b _ hc.symm
      have haccount : (putToSleep c t).refresh.banks[b] = t.refresh.banks[b] := getElem_set_other t.refresh.banks c b _ hc.symm
      simp only [hbank, haccount])
    (fun _ _ _ => trivial) nodup_allBanks (mem_allBanks b)
    (requestHeaderUpdate { s with arrayMode := { s.arrayMode with mode := .enteringSleep, idleTimer := none } }) trivial
  have hbank : (putToSleep b t).banks[b] = sleptBank t.banks[b] := getElem_set_same _ _ _
  have haccount : (putToSleep b t).refresh.banks[b] = sleptAccount t.banks[b] t.refresh.banks[b] := getElem_set_same _ _ _
  simp only [hbank, haccount, Prod.mk.injEq, requestHeaderUpdate_frame] at hsame hturn
  rw [sleeping]
  rw [hsame.1, hsame.2] at hturn
  exact hturn

/-- What the sleep entries leave, beside the banks and their accounts. -/
theorem sleeping_blocks (s : State) : SamePort s (sleeping s) ∧ SameOrders s (sleeping s) ∧ (sleeping s).intake = s.intake
    ∧ (sleeping s).regions = s.regions ∧ (sleeping s).domains = s.domains ∧ (sleeping s).array = s.array ∧ (sleeping s).pending = s.pending
    ∧ (sleeping s).arrayMode = { s.arrayMode with mode := .enteringSleep, idleTimer := none } ∧ HeaderAsked (sleeping s)
    ∧ (sleeping s).refresh.tempClass = s.refresh.tempClass ∧ (sleeping s).refresh.sampleTimer = s.refresh.sampleTimer
    ∧ (sleeping s).refresh.breaches = s.refresh.breaches := by
  refine ⟨?_, ?_, ?_, ?_, ?_, ?_, ?_, ?_, (headerAsked_requestHeaderUpdate
    { s with arrayMode := { s.arrayMode with mode := .enteringSleep, idleTimer := none } }).congr ?_ ?_, ?_, ?_, ?_⟩
  all_goals simp [sleeping, putToSleep, SamePort, SameOrders]

theorem wakeDemand_congr {s t : State} (hslots : t.pool = s.pool) (htable : t.table = s.table) : wakeDemand t = wakeDemand s := by
  simp only [wakeDemand, laneWaits, laneLife, laneOrder, laneEntry, slotOrder, hslots, htable]

/-- The sleep entry of the array: what becomes of each bank and account, and of the mode, by the banks still awake (R127, R143, R175). -/
theorem startSleepEntry_blocks {s : State} (h : StandDownReported s) : (∀ b : BankId, (startSleepEntry s).banks[b] = sleptBank s.banks[b])
    ∧ (∀ b : BankId, (startSleepEntry s).refresh.banks[b] = sleptAccount s.banks[b] s.refresh.banks[b])
    ∧ ((∃ b : BankId, bankAwake (startSleepEntry s).banks[b] = true) →
        startSleepEntry s = sleeping s ∧ (startSleepEntry s).arrayMode = { s.arrayMode with mode := .enteringSleep, idleTimer := none })
    ∧ ((∀ b : BankId, bankAwake (startSleepEntry s).banks[b] = false) → startSleepEntry s = endSleepEntry (sleeping s)
        ∧ (startSleepEntry s).arrayMode = if wakeDemand s = true ∧ s.arrayMode.forcedSleep = false then
          { s.arrayMode with mode := .waking, idleTimer := none, wakeTimer := some 150 }
        else { s.arrayMode with mode := .asleep, idleTimer := none }) := by
  obtain ⟨-, ⟨hpool, htable, -⟩, -, -, -, -, -, hmode, -⟩ := sleeping_blocks s
  have hdemand : wakeDemand (sleeping s) = wakeDemand s := wakeDemand_congr hpool htable
  have hbanks : (startSleepEntry s).banks = (sleeping s).banks := by rw [startSleepEntry_eq h]; simp
  refine ⟨fun b => ?_, fun b => ?_, fun hawake => ?_, fun hasleep => ?_⟩
  · rw [hbanks]
    exact (sleeping_turn s b).1
  · rw [startSleepEntry_eq h]
    simp only [sleepEntryTest_frame]
    exact (sleeping_turn s b).2
  · rw [hbanks] at hawake
    have heq := (startSleepEntry_eq h).trans (sleepEntryTest_of_not (.inr hawake))
    exact ⟨heq, by rw [heq, hmode]⟩
  · rw [hbanks] at hasleep
    have heq := (startSleepEntry_eq h).trans (sleepEntryTest_of_asleep (by rw [hmode]) hasleep)
    refine ⟨heq, ?_⟩
    rw [heq, endSleepEntry_arrayMode, hdemand, hmode]

theorem startSleepEntry_leaves {s : State} (h : StandDownReported s) : HeaderAsked (startSleepEntry s) ∧ SamePort s (startSleepEntry s)
    ∧ SameOrders s (startSleepEntry s) ∧ (startSleepEntry s).intake = s.intake ∧ (startSleepEntry s).regions = s.regions
    ∧ (startSleepEntry s).domains = s.domains ∧ (startSleepEntry s).array = s.array := by
  obtain ⟨hport, horders, hintake, hregions, hdomains, harray, -, -, hheader, -⟩ := sleeping_blocks s
  rw [startSleepEntry_eq h]
  exact ⟨headerAsked_sleepEntryTest hheader, by simpa [SamePort] using hport, by simpa [SameOrders] using horders, by simpa using hintake,
    by simpa using hregions, by simpa using hdomains, by simpa using harray⟩

theorem bankAwake_iff (k : Bank) : bankAwake k = true ↔ k.state ≠ .unpowered ∧ k.state ≠ .asleep := by simp [bankAwake]

theorem wakeDemand_iff (s : State) : wakeDemand s = true ↔
    ∃ l e, laneEntry s l = some e ∧ laneLife s l = some .waiting ∧ e.wait = some .array := by
  simp only [wakeDemand, laneWaits, List.any_eq_true, Bool.and_eq_true, beq_iff_eq, Option.any_eq_true]
  constructor
  · rintro ⟨l, -, hlife, e, he, hwait⟩
    exact ⟨l, e, he, hlife, hwait⟩
  · rintro ⟨l, e, he, hlife, hwait⟩
    exact ⟨l, mem_allLanes l, hlife, e, he, hwait⟩

/-- Settles O53: the sleep entry reaches every bank, and ends once none is awake. -/
theorem sleepEntryRestsTheBanks : Obligations.SleepEntryRestsTheBanks := by
  refine ⟨fun s h => ?_, fun s hrun htimer hreported => ?_, fun s h => ?_, fun s => ⟨wakeDemand_iff s, fun b => bankAwake_iff _⟩,
    fun s hmode hasleep => ?_⟩
  · refine congrArg Host.Outcome.next (if_neg fun ⟨hrun, htimer⟩ => h.elim (fun hne => hne hrun) fun hnone => ?_)
    simp [hnone] at htimer
  · obtain ⟨hbanks, haccounts, hawake, hasleep⟩ := startSleepEntry_blocks hreported
    obtain ⟨hheader, hport, horders, hintake, hregions, hdomains, harray⟩ := startSleepEntry_leaves hreported
    refine ⟨startSleepEntry s, congrArg Host.Outcome.next (if_pos ⟨hrun, htimer⟩), fun b => ?_, fun b => haccounts b, fun h => (hawake h).2,
      fun h => (hasleep h).2, hheader, hport, horders, hintake, hregions, hdomains, harray⟩
    rw [hbanks b]
    generalize s.banks[b] = k
    obtain ⟨state⟩ := k
    cases state <;> rfl
  · have hstay := sleepEntryTest_of_not h
    exact ⟨congrArg (fun t => Host.Outcome.next (settle s t)) hstay, hstay⟩
  · refine ⟨sleepEntryTest s, rfl, rfl, ?_⟩
    rw [sleepEntryTest_of_asleep hmode hasleep]
    exact ⟨endSleepEntry_arrayMode s, headerAsked_endSleepEntry s, by simp [SamePort], by simp [SameOrders], by simp [SameArraySide], by simp⟩

/-! ## The pin reset (R194, R177) -/

/-- What a pin reset resets before it forces the array to sleep. -/
def pinCleared (s : State) : State := resetBlocks { s with port := { PortRegs.reset with resetHeld := true }, engine := EngineRegs.reset }

theorem standDownReported_pinCleared {s : State} (h : StandDownReported s) : StandDownReported (pinCleared s) :=
  (Preserves.after_resetBlocks (t := { s with port := { PortRegs.reset with resetHeld := true }, engine := EngineRegs.reset })
    ⟨rfl, rfl, rfl, rfl⟩).stood h

theorem requestHeaderUpdate_of_dead {s : State} (h : engineLive s = false) : requestHeaderUpdate s = s := if_neg (by simp [h])

/-- With a dead engine and an empty table the sleep entry leaves channel, reporting and table alone and wakes no order. -/
theorem startSleepEntry_of_dead {s : State} (h : StandDownReported s) (hdead : engineLive s = false) (hempty : ∀ l, laneEntry s l = none) :
    (startSleepEntry s).channel = s.channel ∧ (startSleepEntry s).reporting = s.reporting
      ∧ ((∀ b : BankId, bankAwake (startSleepEntry s).banks[b] = false) → (startSleepEntry s).arrayMode.mode = .asleep) := by
  have hnodemand : ∀ t : State, t.pool = s.pool → t.table = s.table → wakeDemand t = false := fun t hpool htable => by
    rw [wakeDemand_congr hpool htable, Bool.eq_false_iff]
    intro hdemand
    obtain ⟨l, e, he, -⟩ := (wakeDemand_iff s).mp hdemand
    rw [hempty l] at he
    cases he
  have hsleeping : (sleeping s).channel = s.channel ∧ (sleeping s).reporting = s.reporting := by
    rw [sleeping, requestHeaderUpdate_of_dead (by exact hdead)]
    simp [putToSleep]
  obtain ⟨⟨-, hengine⟩, ⟨hpool, htable, -⟩, -⟩ := sleeping_blocks s
  have hdead' : engineLive (sleeping s) = false := (engineLive_congr hengine).trans hdead
  have hend : (endSleepEntry (sleeping s)).channel = s.channel ∧ (endSleepEntry (sleeping s)).reporting = s.reporting := by
    rw [endSleepEntry, hnodemand _ hpool htable, Bool.false_and, if_neg Bool.false_ne_true, requestHeaderUpdate_of_dead (by exact hdead')]
    exact hsleeping
  obtain ⟨-, -, hawake, hasleep⟩ := startSleepEntry_blocks h
  by_cases hrest : ∀ b : BankId, bankAwake (startSleepEntry s).banks[b] = false
  · obtain ⟨heq, hmode⟩ := hasleep hrest
    rw [hnodemand s rfl rfl] at hmode
    refine ⟨by rw [heq, hend.1], by rw [heq, hend.2], fun _ => by rw [hmode]; rfl⟩
  · obtain ⟨b, hb⟩ := Classical.not_forall.mp hrest
    obtain ⟨heq, -⟩ := hawake ⟨b, by simpa using hb⟩
    exact ⟨by rw [heq, hsleeping.1], by rw [heq, hsleeping.2], fun h => absurd h hrest⟩

/-- What the forced sleep leaves of a reset state, in every array mode. -/
theorem forceSleep_of_dead {s : State} (h : StandDownReported s) (hdead : engineLive s = false) (hempty : ∀ l, laneEntry s l = none) :
    (forceSleep s).channel = s.channel ∧ (forceSleep s).reporting = s.reporting ∧ SameOrders s (forceSleep s)
      ∧ (forceSleep s).regions = s.regions ∧ (forceSleep s).domains = s.domains ∧ (forceSleep s).array = s.array := by
  cases hmode : s.arrayMode.mode with
  | run =>
    have hforce : forceSleep s = startSleepEntry s := by simp only [forceSleep, hmode]
    obtain ⟨hchannel, hreporting, -⟩ := startSleepEntry_of_dead h hdead hempty
    obtain ⟨-, -, horders, -, hregions, hdomains, harray⟩ := startSleepEntry_leaves h
    rw [hforce]
    exact ⟨hchannel, hreporting, horders, hregions, hdomains, harray⟩
  | enteringSleep | asleep | waking =>
    simp [forceSleep, hmode, SameOrders]

/-- The banks, their accounts and the array mode when sleep is forced (R177). -/
theorem forceSleep_mode (s : State) :
    (s.arrayMode.mode = .run → forceSleep s = startSleepEntry s)
      ∧ (s.arrayMode.mode ≠ .run → (forceSleep s).banks = s.banks ∧ (forceSleep s).refresh = s.refresh)
      ∧ (s.arrayMode.mode = .enteringSleep ∨ s.arrayMode.mode = .asleep → (forceSleep s).arrayMode = s.arrayMode)
      ∧ (s.arrayMode.mode = .waking → (forceSleep s).arrayMode = { s.arrayMode with forcedSleep := true }) := by
  cases hmode : s.arrayMode.mode <;> simp [forceSleep, hmode]

/-- Settles O4: a pin reset clears the order side, drops the ARMING regions and forces the array to sleep. -/
theorem pinResetEffect : Obligations.PinResetEffect := by
  intro s hheld hreported
  have hexec : exec .pinReset s = .next (forceSleep (pinCleared s)) := congrArg Host.Outcome.next (if_neg (by simp [hheld]))
  obtain ⟨hengine, hchannel, hreporting, hintake, hpool, htable, hstrokes, hdomains⟩ :=
    resetBlocks_blocks { s with port := { PortRegs.reset with resetHeld := true }, engine := EngineRegs.reset }
  have hstood := standDownReported_pinCleared hreported
  have hdead : engineLive (pinCleared s) = false := by simp [engineLive, engineIs, pinCleared, hengine]
  have hmode : (pinCleared s).arrayMode = s.arrayMode := by simp [pinCleared]
  obtain ⟨hchannel', hreporting', ⟨hpool', htable', hstrokes'⟩, hregions', hdomains', harray'⟩ := forceSleep_of_dead hstood hdead htable
  obtain ⟨hrun, hother, hkept, hwaking⟩ := forceSleep_mode (pinCleared s)
  rw [hmode] at hrun hother hkept hwaking
  obtain ⟨hbanks, haccounts, hawake, hasleep⟩ := startSleepEntry_blocks hstood
  have hown (b : BankId) : bankOwn (pinCleared s).banks[b] = bankOwn (abandonRequests s.banks[b]) := resetBlocks_bankOwn
  refine ⟨_, hexec, by simp [pinCleared], (show (forceSleep (pinCleared s)).engine = (pinCleared s).engine by simp).trans hengine, hchannel'.trans hchannel, hreporting'.trans hreporting,
    (show (forceSleep (pinCleared s)).intake = (pinCleared s).intake by simp).trans hintake, hpool'.trans hpool, fun l => (laneEntry_congr htable' l).trans (htable l), hstrokes'.trans hstrokes,
    fun b => ?_, fun r => ?_, by simp [pinCleared], by simp [pinCleared], by simp [pinCleared], hdomains'.trans hdomains, fun hmoderun => ?_, hkept, hwaking,
    harray'.trans (by simp [pinCleared]), by simp [pinCleared], fun hlegal b => ?_⟩
  · have hb := hown b
    simp only [bankOwn, Prod.mk.injEq] at hb
    obtain ⟨-, hrequests, hinHand, -, -, hdown⟩ := hb
    by_cases hmoderun : s.arrayMode.mode = .run
    · obtain ⟨hrequests', hinHand', hdown'⟩ := sleptBank_keeps (pinCleared s).banks[b]
      rw [hrun hmoderun, hbanks b]
      exact ⟨hrequests'.trans hrequests, hdown'.trans hdown, hinHand'.trans hinHand⟩
    · rw [(hother hmoderun).1]
      exact ⟨hrequests, hdown, hinHand⟩
  · rw [hregions']
    exact resetBlocks_regions _ r
  · obtain ⟨-, -, hmodeasleep⟩ := startSleepEntry_of_dead hstood hdead htable
    rw [hrun hmoderun]
    refine ⟨?_, fun b hb => ?_, hmodeasleep, fun hex => ?_⟩
    · by_cases hrest : ∀ b : BankId, bankAwake (startSleepEntry (pinCleared s)).banks[b] = false
      · obtain ⟨-, hm⟩ := hasleep hrest
        rw [hm]
        split <;> rfl
      · obtain ⟨b, hb⟩ := Classical.not_forall.mp hrest
        obtain ⟨-, hm⟩ := hawake ⟨b, by simpa using hb⟩
        rw [hm]
    · rw [hbanks b] at hb ⊢
      exact sleptBank_hold hb
    · obtain ⟨-, hm⟩ := hawake hex
      rw [hm]
  · obtain ⟨-, -, hk, -⟩ := hlegal b
    have hbank : (pinCleared s).banks[b] = abandonRequests s.banks[b] := resetBlocks_bank hk
    have hhanded : HandedK s b (retainedCount (forceSleep (pinCleared s)) b) (pinCleared s).refresh.banks[b] := by
      rw [retainedCount_congr hregions']
      exact (resetBlocks_handedK (s := { s with port := { PortRegs.reset with resetHeld := true }, engine := EngineRegs.reset }) hk).congr
        rfl rfl rfl
    have hstate : (pinCleared s).banks[b].state = s.banks[b].state := by rw [hbank]; rfl
    have hsame : ¬(s.arrayMode.mode = .run ∧ s.banks[b].state = .idle) →
        (forceSleep (pinCleared s)).refresh.banks[b] = (pinCleared s).refresh.banks[b] := fun hnot => by
      by_cases hmoderun : s.arrayMode.mode = .run
      · rw [hrun hmoderun, haccounts b]
        exact if_neg fun hidle => hnot ⟨hmoderun, hstate.symm.trans hidle⟩
      · rw [(hother hmoderun).2]
    have hrest : s.arrayMode.mode = .run → s.banks[b].state = .idle →
        (forceSleep (pinCleared s)).refresh.banks[b] = refreshAtRest (pinCleared s).refresh.banks[b] := fun hmoderun hidle => by
      rw [hrun hmoderun, haccounts b]
      exact if_pos (hstate.trans hidle)
    refine ⟨?_, abandonRequests s.banks[b], rfl, fun hmoderun => ?_, fun hmoderun => ?_, fun hmoderun hidle => ⟨_, hhanded, hrest hmoderun hidle⟩,
      fun hnot => ?_⟩
    · by_cases hslept : s.arrayMode.mode = .run ∧ s.banks[b].state = .idle
      · rw [hrest hslept.1 hslept.2]
        exact hhanded.k_eq
      · rw [hsame hslept]
        exact hhanded.k_eq
    · rw [(hother hmoderun).1, hbank]
    · rw [hrun hmoderun, hbanks b, hbank]
      generalize s.banks[b] = k
      obtain ⟨state⟩ := k
      cases state <;> rfl
    · rw [hsame hnot]
      exact hhanded

/-! ## Wake (R128, R143, R176) -/

theorem wakeBank_other (t : State) {b c : BankId} (hc : c ≠ b) : (wakeBank c t).banks[b] = t.banks[b]
    ∧ (wakeBank c t).refresh.banks[b] = t.refresh.banks[b] := by
  unfold wakeBank
  split
  · exact ⟨getElem_set_other t.banks c b _ hc.symm, getElem_set_other t.refresh.banks c b _ hc.symm⟩
  · exact ⟨rfl, rfl⟩

/-- The bank and the account of a wake completion (R128, R143). -/
def wokenBank (k : Bank) : Bank := if k.state = .asleep then { k with state := .idle, openRow := none, streak := 0 } else k

def wokenAccount (c : TempClass) (k : Bank) (r : RefreshBank) : RefreshBank := if k.state = .asleep then wakeRefresh c r else r

theorem wakeBank_own (t : State) (b : BankId) : (wakeBank b t).banks[b] = wokenBank t.banks[b]
    ∧ (wakeBank b t).refresh.banks[b] = wokenAccount t.refresh.tempClass t.banks[b] t.refresh.banks[b] := by
  unfold wakeBank wokenBank wokenAccount
  simp only [beq_iff_eq]
  split
  · exact ⟨getElem_set_same _ _ _, getElem_set_same _ _ _⟩
  · exact ⟨rfl, rfl⟩

/-- At the wake completion each ASLEEP bank goes to IDLE with a fresh account, every other bank stays (R128, R143). -/
theorem wakeBanks_turn (s : State) (b : BankId) : (wakeBanks s).banks[b] = wokenBank s.banks[b]
    ∧ (wakeBanks s).refresh.banks[b] = wokenAccount s.refresh.tempClass s.banks[b] s.refresh.banks[b] := by
  obtain ⟨t, hclass, hsame, hturn⟩ := foldl_banks_turn (b := b) (fun t => (t.banks[b], t.refresh.banks[b]))
    (fun t => t.refresh.tempClass = s.refresh.tempClass) (f := fun t c => wakeBank c t)
    (fun t c hc => by simp only [wakeBank_other t hc]) (fun t c ht => by simpa using ht) nodup_allBanks (mem_allBanks b)
    (requestHeaderUpdate { s with arrayMode := { s.arrayMode with mode := .run, wakeTimer := none } }) (by simp)
  obtain ⟨hbank, haccount⟩ := wakeBank_own t b
  simp only [hbank, haccount, Prod.mk.injEq, requestHeaderUpdate_frame] at hsame hturn
  rw [hsame.1, hsame.2, hclass] at hturn
  rw [wakeBanks]
  dsimp only
  exact hturn

theorem wakeBanks_blocks (s : State) : (wakeBanks s).arrayMode = { s.arrayMode with mode := .run, wakeTimer := none }
    ∧ HeaderAsked (wakeBanks s) ∧ SamePort s (wakeBanks s) ∧ SameOrders s (wakeBanks s) := by
  refine ⟨?_, (headerAsked_requestHeaderUpdate { s with arrayMode := { s.arrayMode with mode := .run, wakeTimer := none } }).congr ?_ ?_, ?_, ?_⟩
  all_goals simp [wakeBanks, SamePort, SameOrders]

/-- Settles O54: the wake brings the banks to IDLE, or a forced sleep follows at the same event. -/
theorem wakeBringsTheArrayToRun : Obligations.WakeBringsTheArrayToRun := by
  have hexec : ∀ s : State, s.arrayMode.mode = .waking → s.arrayMode.wakeTimer.isSome = true →
      exec .wakeTimerExpiry s = .next (settle s (startTests (finishWake s))) := fun s hwaking htimer =>
    congrArg Host.Outcome.next (if_pos ⟨hwaking, htimer⟩)
  refine ⟨fun s h => ?_, fun s hwaking htimer hfree => ?_, fun s hwaking htimer hforced hholds hreported => ?_⟩
  · refine congrArg Host.Outcome.next (if_neg fun ⟨hwaking, htimer⟩ => h.elim (fun hne => hne hwaking) fun hnone => ?_)
    simp [hnone] at htimer
  · obtain ⟨hmode, hheader, hport, horders⟩ := wakeBanks_blocks s
    have hfinish : finishWake s = allBanks.foldl (fun t b => bankDecide b t) (wakeBanks s) := if_neg (by simp [hfree])
    refine ⟨wakeBanks s, by rw [hexec s hwaking htimer, hfinish], hmode, hheader, fun b => (wakeBanks_turn s b).1, fun b => ?_, hport, horders,
      by simp, by simp, by simp, by simp⟩
    rw [(wakeBanks_turn s b).2, wokenAccount]
    unfold wakeRefresh
    by_cases hk : s.refresh.banks[b].k = 0
    · simp only [if_pos hk]
    · simp only [if_neg hk]
      rfl
  · have hfinish : finishWake s = startSleepEntry (wakeBanks { s with arrayMode := { s.arrayMode with forcedSleep := false } }) :=
      if_pos hforced
    have hstood := (Keeps.after_wakeBanks { s with arrayMode := { s.arrayMode with forcedSleep := false } }).stood hreported
    obtain ⟨hmode, -, hport, hpool, htable, hstrokes⟩ := wakeBanks_blocks { s with arrayMode := { s.arrayMode with forcedSleep := false } }
    obtain ⟨hbanks, -, -, hasleep⟩ := startSleepEntry_blocks hstood
    obtain ⟨-, hport', ⟨hpool', htable', hstrokes'⟩, hintake', hregions', hdomains', harray'⟩ := startSleepEntry_leaves hstood
    have hrest : ∀ b : BankId, bankAwake
        (startSleepEntry (wakeBanks { s with arrayMode := { s.arrayMode with forcedSleep := false } })).banks[b] = false := fun b => by
      have hbank := (wakeBanks_turn { s with arrayMode := { s.arrayMode with forcedSleep := false } } b).1
      have hold := hholds (.inr hwaking) b
      rw [hbanks b, hbank, wokenBank]
      split
      · simp [sleptBank, asleepBank, bankAwake]
      · rw [sleptBank_of_rest (by exact hold)]
        exact hold
    obtain ⟨-, hm⟩ := hasleep hrest
    refine ⟨_, by rw [hexec s hwaking htimer, hfinish], ?_, hrest, hregions'.trans (by simp), hdomains'.trans (by simp), harray'.trans (by simp),
      ?_, ?_, hintake'.trans (by simp)⟩
    · rw [hm, hmode, wakeDemand_congr (s := s) hpool htable]
      simp
    · exact ⟨hport'.1.trans hport.1, hport'.2.trans hport.2⟩
    · exact ⟨hpool'.trans hpool, htable'.trans htable, hstrokes'.trans hstrokes⟩

end Sys2Proof.Safety
end

section
/-! PROOFS. How orders stop and report (R83 to R88): the end tests, the stop of a RUNNING order, CANCEL, MARK_FINISH and STOPPING_END. -/

namespace Sys2Proof.Safety

open Sys2Proof.Machine

/-! ## An order that reports (R86) -/

section Reporting

variable {s : State} {l : Lane} {e : TableEntry} {o : PoolOrder}

theorem toReporting_reports (he : laneEntry s l = some e) (ho : slotOrder s e.slot = some o) (r : OrderResult) :
    Reports (toReporting l r s) e.slot o r.outcome r.reason r.corrected r.done :=
  ⟨(toReporting_laneStep he ho r).slot_same, by rw [toReporting_eq he]; simp [placeRequest]⟩

theorem toReporting_generator (he : laneEntry s l = some e) (r : OrderResult) : (toReporting l r s).strokes.generators[l] = none := by
  rw [toReporting_generators he, getElem_set_same]

theorem LaneStep.slot_unchanged {t : State} {e' : TableEntry} {o' : PoolOrder} (h : LaneStep s t l e e' o o') {j : SlotId} (hj : j ≠ e.slot) :
    slotOrder t j = slotOrder s j := by
  rw [h.slots, if_neg hj]

theorem toReporting_others (he : laneEntry s l = some e) (ho : slotOrder s e.slot = some o) (r : OrderResult) :
    (∀ j, j ≠ e.slot → slotOrder (toReporting l r s) j = slotOrder s j) ∧ ∀ m, m ≠ l → laneEntry (toReporting l r s) m = laneEntry s m :=
  have hstep := toReporting_laneStep he ho r
  ⟨fun _ hj => hstep.slot_unchanged hj, fun _ hm => hstep.entry_other hm⟩

theorem sameArraySide_toReporting (l : Lane) (r : OrderResult) (s : State) : SameArraySide s (toReporting l r s) := by
  simp [SameArraySide]

theorem samePort_toReporting (l : Lane) (r : OrderResult) (s : State) : SamePort s (toReporting l r s) := by simp [SamePort]

/-! ## The end test (R85, R112) -/

theorem rampOf_iff (s : State) (n : OrderName) : rampOf s n = true ↔ ∃ v, s.domains.serving = some v ∧ v.owner = some n := by
  simp [rampOf, Option.any_eq_true]

theorem laneInFlight_iff (s : State) (l : Lane) : laneInFlight s l = true ↔
    inFlight s l ≠ 0 ∨ ∃ o, laneOrder s l = some o ∧ rampOf s { lane := l, seq := o.seq } = true := by
  simp [laneInFlight, Option.any_eq_true]

theorem laneInFlight_of_order (ho : laneOrder s l = some o) :
    laneInFlight s l = (inFlight s l != 0 || rampOf s { lane := l, seq := o.seq }) := by
  simp [laneInFlight, ho]

theorem not_halted_of_live (h : engineLive s = true) : s.engine.state ≠ .halted := fun hhalted =>
  ((engineLive_iff s).mp h).elim (fun hr => absurd (hr.symm.trans hhalted) (by decide)) fun hd => absurd (hd.symm.trans hhalted) (by decide)

theorem endTest_reports {c : StopCause} (ho : laneOrder s l = some o) (hlife : o.life = .stopping) (hcause : o.stopCause = some c)
    (hlive : s.engine.state ≠ .halted) (hnone : laneInFlight s l = false) : endTest l s = toReporting l (stopResult c o) s := by
  simp [endTest, ho, hcause, hlife, engineIs, hlive, hnone]

theorem endTest_stays (h : ∀ o, laneOrder s l = some o →
    o.life ≠ .stopping ∨ s.engine.state = .halted ∨ o.stopCause = none ∨ laneInFlight s l = true) : endTest l s = s := by
  unfold endTest
  split
  · rfl
  · rename_i o ho
    split
    · rfl
    · rename_i c hcause
      refine if_neg fun htest => ?_
      simp only [Bool.and_eq_true, beq_iff_eq, Bool.not_eq_true', engineIs, beq_eq_false_iff_ne] at htest
      obtain ⟨⟨hstopping, hlive⟩, hnone⟩ := htest
      simpa [hstopping, hlive, hnone, hcause] using h o ho

/-! ## ARMING regions of an order that stops (R158) -/

theorem armedBy_iff (s : State) (n : OrderName) (r : RegionId) :
    armedBy s n r = true ↔ s.regions[r].state = .arming ∧ s.regions[r].owner = some n := by
  simp [armedBy, regionState]

/-- The regions an order was arming, DROPPED. -/
def disarmedOf (n : OrderName) (s : State) : State := mapRegions (fun x r => if armedBy s n x then Region.become .dropped else r) s

theorem disarmedOf_frame (n : OrderName) (s : State) : (disarmedOf n s).banks = s.banks ∧ (disarmedOf n s).refresh = s.refresh := by
  simp [disarmedOf]

theorem disarmedOf_regions (n : OrderName) (s : State) (r : RegionId) : (disarmedOf n s).regions[r] =
    if armedBy s n r then { state := .dropped, owner := none, sweep := 0 } else s.regions[r] := by
  rw [disarmedOf, mapRegions_get]
  rfl

theorem dropArming_cases (n : OrderName) (s : State) : dropArming n s = handAllK (disarmedOf n s)
    ∨ (dropArming n s = s ∧ ∀ r : RegionId, armedBy s n r = false) := by
  unfold dropArming
  split
  · exact .inl rfl
  · rename_i hnone
    exact .inr ⟨rfl, fun r => Bool.eq_false_iff.mpr fun h => hnone (List.any_eq_true.mpr ⟨r, List.mem_finRange r, h⟩)⟩

theorem dropArming_regions (n : OrderName) (s : State) (r : RegionId) : (dropArming n s).regions[r] =
    if armedBy s n r then { state := .dropped, owner := none, sweep := 0 } else s.regions[r] := by
  obtain h | ⟨h, hnone⟩ := dropArming_cases n s
  · rw [h, ← disarmedOf_regions]
    simp
  · rw [h, if_neg (by simp [hnone r])]

/-! ## A RUNNING order stops (R84, R85) -/

theorem stopOrder_laneStep (he : laneEntry s l = some e) (ho : slotOrder s e.slot = some o) (hlife : o.life = .running)
    (cause : Option StopCause) : LaneStep s (stopOrder l cause s) l e e o { o with life := .stopping, stopCause := cause } := by
  rw [stopOrder_running ((laneOrder_of_entry he).trans ho) hlife]
  exact (stopLane_laneStep he ho cause).congr (by simp) (by simp)

theorem stopOrder_issuing (ho : laneOrder s l = some o) (hlife : o.life = .running) (cause : Option StopCause) {g : Generator}
    (hg : (stopOrder l cause s).strokes.generators[l] = some g) : g.issuing = false := by
  simp only [stopOrder_running ho hlife, dropArming_frame] at hg
  exact stopIssuing_issuing hg

theorem stopOrder_regions (ho : laneOrder s l = some o) (hlife : o.life = .running) (cause : Option StopCause) (r : RegionId) :
    (stopOrder l cause s).regions[r] =
      if armedBy s { lane := l, seq := o.seq } r then { state := .dropped, owner := none, sweep := 0 } else s.regions[r] := by
  have hregions : (stopLane l cause s).regions = s.regions := by simp [stopLane]
  rw [stopOrder_running ho hlife, dropArming_regions, armedBy, regionState, hregions]
  rfl

theorem stopOrder_buffers (l : Lane) (cause : Option StopCause) (s : State) : (stopOrder l cause s).strokes.buffers = s.strokes.buffers := by
  by_cases hrunning : ∃ o, laneOrder s l = some o ∧ o.life = .running
  · obtain ⟨o, ho, hlife⟩ := hrunning
    simp [stopOrder_running ho hlife, stopLane, stopIssuing, setGenerator]
  · rw [stopOrder_of_not_running fun o ho hlife => hrunning ⟨o, ho, hlife⟩]

/-- What is in flight does not depend on the stop. -/
theorem laneInFlight_stopOrder (he : laneEntry s l = some e) (ho : slotOrder s e.slot = some o) (hlife : o.life = .running)
    (cause : Option StopCause) : laneInFlight (stopOrder l cause s) l = laneInFlight s l := by
  rw [laneInFlight_of_order (stopOrder_laneStep he ho hlife cause).order_same, laneInFlight_of_order ((laneOrder_of_entry he).trans ho),
    inFlight_congr (s := s) (by simp)]
  simp only [rampOf, stopOrder_frame]
  rfl

theorem toStopping_of_not_running (h : ∀ o, laneOrder s l = some o → o.life ≠ .running) (c : Option StopCause) : toStopping l c s = s := by
  refine if_neg fun hlife => ?_
  obtain ⟨o, ho, hrunning⟩ := Option.map_eq_some_iff.mp (beq_iff_eq.mp hlife)
  exact h o ho hrunning

theorem toStopping_running (ho : laneOrder s l = some o) (hlife : o.life = .running) (c : Option StopCause) :
    toStopping l c s = endTest l (stopOrder l c s) := by
  refine if_pos ?_
  rw [laneLife, ho]
  simp [hlife]

theorem toStopping_stays (he : laneEntry s l = some e) (ho : slotOrder s e.slot = some o) (hlife : o.life = .running)
    {c : Option StopCause} (h : c = none ∨ s.engine.state = .halted ∨ laneInFlight s l = true) : toStopping l c s = stopOrder l c s := by
  have hstep := stopOrder_laneStep he ho hlife c
  rw [toStopping_running ((laneOrder_of_entry he).trans ho) hlife, endTest_stays]
  intro x hx
  cases hstep.order_same.symm.trans hx
  simp only [laneInFlight_stopOrder he ho hlife, stopOrder_frame]
  exact .inr (h.elim (fun hnone => .inr (.inl hnone)) fun hheld => hheld.elim .inl fun hflight => .inr (.inr hflight))

theorem toStopping_reports (he : laneEntry s l = some e) (ho : slotOrder s e.slot = some o) (hlife : o.life = .running)
    (c : StopCause) (hlive : s.engine.state ≠ .halted) (hnone : laneInFlight s l = false) : toStopping l (some c) s =
      toReporting l { outcome := c.outcome, reason := 0, corrected := o.corrected, done := o.done } (stopOrder l (some c) s) := by
  have hstep := stopOrder_laneStep he ho hlife (some c)
  rw [toStopping_running ((laneOrder_of_entry he).trans ho) hlife, endTest_reports hstep.order_same rfl rfl (by simpa using hlive)
    (by rw [laneInFlight_stopOrder he ho hlife, hnone])]
  rfl

/-- What `toStopping` does to a RUNNING order that something holds in flight, or that takes no cause. -/
theorem toStopping_held (he : laneEntry s l = some e) (ho : slotOrder s e.slot = some o) (hlife : o.life = .running)
    {c : Option StopCause} (h : c = none ∨ s.engine.state = .halted ∨ laneInFlight s l = true) :
    slotOrder (toStopping l c s) e.slot = some { o with life := .stopping, stopCause := c }
      ∧ ∀ g, (toStopping l c s).strokes.generators[l] = some g → g.issuing = false := by
  rw [toStopping_stays he ho hlife h]
  exact ⟨(stopOrder_laneStep he ho hlife c).slot_same, fun g => stopOrder_issuing ((laneOrder_of_entry he).trans ho) hlife c⟩

/-- With nothing in flight it reports at once. -/
theorem toStopping_free (he : laneEntry s l = some e) (ho : slotOrder s e.slot = some o) (hlife : o.life = .running)
    (c : StopCause) (hlive : s.engine.state ≠ .halted) (hnone : laneInFlight s l = false) :
    slotOrder (toStopping l (some c) s) e.slot =
        some { o with life := .reporting, stopCause := some c, outcome := some c.outcome, reason := 0 }
      ∧ .result e.slot ∈ (toStopping l (some c) s).channel.queue ∧ (toStopping l (some c) s).strokes.generators[l] = none := by
  have hstep := stopOrder_laneStep he ho hlife (some c)
  rw [toStopping_reports he ho hlife c hlive hnone]
  obtain ⟨hslot, hqueue⟩ := toReporting_reports hstep.entry_same hstep.slot_same
    { outcome := c.outcome, reason := 0, corrected := o.corrected, done := o.done }
  exact ⟨hslot, hqueue, toReporting_generator hstep.entry_same _⟩

theorem endTest_slot_other (he : laneEntry s l = some e) {j : SlotId} (hj : j ≠ e.slot) : slotOrder (endTest l s) j = slotOrder s j := by
  unfold endTest
  split
  · rfl
  · rename_i o ho
    split
    · rfl
    · split
      · exact (toReporting_others he ((laneOrder_of_entry he).symm.trans ho) _).1 j hj
      · rfl

theorem toStopping_slot_other (he : laneEntry s l = some e) (ho : slotOrder s e.slot = some o) (c : Option StopCause) {j : SlotId}
    (hj : j ≠ e.slot) : slotOrder (toStopping l c s) j = slotOrder s j := by
  have horder := (laneOrder_of_entry he).trans ho
  by_cases hlife : o.life = .running
  · have hstep := stopOrder_laneStep he ho hlife c
    rw [toStopping_running horder hlife, endTest_slot_other hstep.entry_same hj, hstep.slot_unchanged hj]
  · rw [toStopping_of_not_running fun x hx => ?_]
    cases horder.symm.trans hx
    exact hlife

theorem toStopping_regions (ho : laneOrder s l = some o) (hlife : o.life = .running) (c : Option StopCause) (r : RegionId) :
    (toStopping l c s).regions[r] =
      if armedBy s { lane := l, seq := o.seq } r then { state := .dropped, owner := none, sweep := 0 } else s.regions[r] := by
  rw [toStopping_running ho hlife, ← stopOrder_regions ho hlife c]
  simp

theorem endTest_buffers (l : Lane) (s : State) : (endTest l s).strokes.buffers = s.strokes.buffers := by
  unfold endTest toReporting
  (repeat' split) <;> simp [setGenerator]

theorem toStopping_buffers (l : Lane) (c : Option StopCause) (s : State) : (toStopping l c s).strokes.buffers = s.strokes.buffers := by
  unfold toStopping
  split
  · rw [endTest_buffers, stopOrder_buffers]
  · rfl

end Reporting

/-! ## CANCEL (R60 to R64) -/

theorem exec_cancel {s : State} (hheld : s.port.resetHeld = false) (q : Word) : exec (.cancel q) s = .next (settle s (cancelOrder q s)) :=
  congrArg Host.Outcome.next (if_neg (by simp [hheld]))

theorem cancelOrder_untaken {s : State} {q : Word} (hlive : engineLive s = true) (hq : (q - s.pool.taken).toNat < 2147483648) :
    cancelOrder q s = cancelUntaken q s := by
  simp only [cancelOrder, hlive, Bool.not_true, Bool.false_eq_true, if_false, if_pos hq]

/-- Settles O14: a cancel of an order not yet taken, and in an engine state that takes none. -/
theorem cancelOfUntakenOrder : Obligations.CancelOfUntakenOrder := by
  refine fun s q hheld => ⟨fun hlive => ?_, fun hlive hq => ⟨fun hmem => ?_, fun hmem hroom => ?_, fun hmem hfull => ?_⟩⟩
  · rw [exec_cancel hheld, cancelOrder, hlive]
    rfl
  · rw [exec_cancel hheld, cancelOrder_untaken hlive hq, cancelUntaken, if_pos (List.contains_iff_mem.mpr hmem)]
    rfl
  · rw [exec_cancel hheld, cancelOrder_untaken hlive hq, cancelUntaken, if_neg (by simpa using hmem), if_pos (show _ < Config.maxCancels from hroom)]
    rfl
  · rw [exec_cancel hheld, cancelOrder_untaken hlive hq, cancelUntaken, if_neg (by simpa using hmem),
      if_neg (Nat.not_lt.mpr (show Config.maxCancels ≤ _ from hfull))]
    rfl

/-- A search by sequence finds the one order that has it. -/
theorem findSeq_of_unique {s : State} {q : Word} {i : SlotId} {o : PoolOrder} (ho : slotOrder s i = some o) (hseq : o.seq = q)
    (hunique : ∀ j p, slotOrder s j = some p → p.seq = q → j = i) : findSeq s q = some i := by
  cases hfind : findSeq s q with
  | none =>
    have hnone := List.find?_eq_none.mp hfind i (List.mem_finRange i)
    simp [ho, hseq] at hnone
  | some j =>
    rw [findSeq] at hfind
    have hany := List.find?_some hfind
    obtain ⟨p, hp, hpseq⟩ := (Option.any_eq_true _ _).mp hany
    rw [hunique j p hp (beq_iff_eq.mp hpseq)]

theorem findSeq_of_none {s : State} {q : Word} (h : ∀ i o, slotOrder s i = some o → o.seq ≠ q) : findSeq s q = none := by
  refine List.find?_eq_none.mpr fun i _ hi => ?_
  obtain ⟨o, ho, hseq⟩ := (Option.any_eq_true _ _).mp hi
  exact h i o ho (beq_iff_eq.mp hseq)

theorem cancelOrder_taken {s : State} {q : Word} {i : SlotId} {o : PoolOrder} (hlive : engineLive s = true)
    (hq : 2147483648 ≤ (q - s.pool.taken).toNat) (ho : slotOrder s i = some o) (hseq : o.seq = q)
    (hunique : ∀ j p, slotOrder s j = some p → p.seq = q → j = i) : cancelOrder q s = cancelTaken i o s := by
  simp only [cancelOrder, hlive, Bool.not_true, Bool.false_eq_true, if_false, if_neg (Nat.not_lt.mpr hq), findSeq_of_unique ho hseq hunique, ho]

theorem cancelOrder_gone {s : State} {q : Word} (hlive : engineLive s = true) (hq : 2147483648 ≤ (q - s.pool.taken).toNat)
    (h : ∀ i o, slotOrder s i = some o → o.seq ≠ q) : cancelOrder q s = setCancelStatus .missed s := by
  simp only [cancelOrder, hlive, Bool.not_true, Bool.false_eq_true, if_false, if_neg (Nat.not_lt.mpr hq), findSeq_of_none h]

/-- A RUNNING order whose cancel applies, its request withdrawn. -/
def cancelApplied (n : OrderName) (s : State) : State := withdrawRequest n (setCancelStatus .applied s)

theorem cancelRunning_applied {s : State} {l : Lane} {o : PoolOrder} (hramp : rampOf s { lane := l, seq := o.seq } = false) :
    cancelRunning l o s = toStopping l (some .cancelled) (cancelApplied { lane := l, seq := o.seq } s) := by
  simp [cancelRunning, hramp, cancelApplied]

/-- Settles O15: a cancel of a taken order, by the lifecycle state it finds. -/
theorem cancelOfTakenOrder : Obligations.CancelOfTakenOrder := by
  refine ⟨fun s q hheld hlive hq => ⟨fun hgone => ?_, fun i o ho hseq hunique => ?_⟩, fun s q i o hheld hlive hq ho hseq hunique hlife hat => ?_⟩
  · rw [exec_cancel hheld, cancelOrder_gone hlive hq hgone]
    rfl
  · rw [exec_cancel hheld, cancelOrder_taken hlive hq ho hseq hunique]
    refine ⟨fun hlife => ?_, fun hlife => ?_, fun hlife hat => ?_⟩
    · obtain hlife | hlife := hlife <;> · rw [cancelTaken, hlife]; rfl
    · rw [cancelTaken, hlife]
      rfl
    · obtain ⟨-, e, he, rfl⟩ := hat
      obtain ⟨hslots, hentries⟩ := toReporting_others (s := setCancelStatus .applied s) he ho (plainResult .cancelled)
      refine ⟨_, by rw [cancelTaken, hlife], toReporting_reports (s := setCancelStatus .applied s) he ho (plainResult .cancelled), ?_, ?_, hslots,
        hentries, sameArraySide_toReporting _ _ _, ?_, ?_⟩ <;> simp [setCancelStatus]
  · subst hseq
    obtain ⟨-, e, he, rfl⟩ := hat
    rw [exec_cancel hheld, cancelOrder_taken hlive hq ho rfl hunique]
    have htaken : cancelTaken e.slot o s = cancelRunning o.entry.lane o s := by rw [cancelTaken, hlife]
    rw [htaken]
    refine ⟨fun hramp => by rw [cancelRunning, if_pos hramp]; rfl, fun hramp => ?_⟩
    rw [cancelRunning_applied hramp]
    generalize hv : cancelApplied { lane := o.entry.lane, seq := o.seq } s = v
    have hve : laneEntry v o.entry.lane = some e := by rw [← hv]; exact he
    have hvo : slotOrder v e.slot = some o := by rw [← hv]; exact ho
    have hvflight : laneInFlight v o.entry.lane = (inFlight s o.entry.lane != 0) := by
      rw [laneInFlight_of_order ((laneOrder_of_entry hve).trans hvo), ← hv]
      exact (congrArg (inFlight s o.entry.lane != 0 || ·) hramp).trans (Bool.or_false _)
    have hvlive : v.engine.state ≠ .halted := by
      rw [← hv]
      exact not_halted_of_live hlive
    have harmed : ∀ r, armedBy v { lane := o.entry.lane, seq := o.seq } r = armedBy s { lane := o.entry.lane, seq := o.seq } r := fun r => by
      rw [← hv]
      rfl
    refine ⟨_, rfl, ?_, ?_, ?_, fun hflight => ?_, fun hflight => ?_, ?_, fun r => ?_, ?_, fun j hj => ?_, ?_⟩
    · simp [← hv, cancelApplied, setCancelStatus]
    · simp [← hv, cancelApplied]
    · simp [← hv, cancelApplied]
    · exact toStopping_held hve hvo hlife (.inr (.inr (by rw [hvflight]; simpa using hflight)))
    · exact toStopping_free hve hvo hlife .cancelled hvlive (by rw [hvflight]; simpa using hflight)
    · simp [← hv, cancelApplied, withdrawRequest]
    · rw [toStopping_regions ((laneOrder_of_entry hve).trans hvo) hlife, harmed, ← hv]
      simp [cancelApplied]
    · simp [← hv, cancelApplied]
    · rw [toStopping_slot_other hve hvo _ hj, ← hv]
      rfl
    · simp [← hv, cancelApplied]

/-! ## MARK_FINISH and STOPPING_END (R58, R85) -/

section Mark

variable {s : State} {l : Lane} {e : TableEntry} {o : PoolOrder}

theorem laneWaits_iff {w : WaitReason} (he : laneEntry s l = some e) (ho : slotOrder s e.slot = some o) :
    laneWaits s l w = true ↔ o.life = .waiting ∧ e.wait = some w := by
  simp [laneWaits, laneLife, laneOrder_of_entry he, ho, he]

theorem markTest_finishes (he : laneEntry s l = some e) (ho : slotOrder s e.slot = some o) (hkind : o.kind = some .mark)
    (hlife : o.life = .waiting) (hwait : e.wait = some .earlier) (hlive : s.engine.state ≠ .halted) (hoist : s.pool.oldestOpen = o.seq) :
    markTest l s = toReporting l (plainResult .ok) s := by
  simp [markTest, laneOrder_of_entry he, ho, (laneWaits_iff he ho).mpr ⟨hlife, hwait⟩, hkind, hoist, engineIs, hlive]

theorem markTest_stays (h : ∀ e o, laneEntry s l = some e → slotOrder s e.slot = some o →
    o.kind ≠ some .mark ∨ o.life ≠ .waiting ∨ e.wait ≠ some .earlier ∨ s.engine.state = .halted ∨ s.pool.oldestOpen ≠ o.seq) :
    markTest l s = s := by
  unfold markTest
  split
  · rename_i o ho
    obtain ⟨e, he, ho⟩ := laneOrder_eq_some ho
    refine if_neg fun htest => ?_
    simp only [Bool.and_eq_true, beq_iff_eq, Bool.not_eq_true', engineIs, beq_eq_false_iff_ne, laneWaits_iff he ho] at htest
    obtain ⟨⟨⟨⟨hlife, hwait⟩, hkind⟩, hoist⟩, hlive⟩ := htest
    simpa [hlife, hwait, hkind, hoist, hlive] using h e o he ho
  · rfl

end Mark

/-- Settles O36: a MARK waits for its turn and reports; a STOPPING order reports its cause once nothing is in flight. -/
theorem marksAndStoppedOrdersReport : Obligations.MarksAndStoppedOrdersReport := by
  refine ⟨fun s l e o he ho hkind hlife hwait hlive => ⟨fun hoist => ?_, fun hoist => ?_⟩, fun s l h => ?_, fun _ _ => rfl,
    fun s => ⟨fun _ => rfl, rfl⟩, fun s l n => ⟨laneInFlight_iff s l, inFlight_eq_countP s l, rampOf_iff s n⟩,
    fun s l e o he ho hlife => ⟨fun hstays => ?_, fun c hlive hcause hnone => ?_⟩⟩
  · have hstays : markTest l s = s := markTest_stays fun d x hd hx => by
      cases he.symm.trans hd
      cases ho.symm.trans hx
      exact .inr (.inr (.inr (.inr hoist)))
    exact ⟨congrArg (fun t => Host.Outcome.next (settle s t)) hstays, hstays⟩
  · have heq := markTest_finishes he ho hkind hlife hwait hlive hoist
    refine ⟨_, rfl, rfl, ?_⟩
    rw [heq]
    obtain ⟨hslots, hentries⟩ := toReporting_others he ho (plainResult .ok)
    exact ⟨toReporting_reports he ho _, samePort_toReporting _ _ _, by simp, by simp, sameArraySide_toReporting _ _ _, by simp, hslots, hentries⟩
  · have hstays : markTest l s = s := markTest_stays fun e o he ho => by
      exact (h e o he ho).imp_right fun h => h.imp_right fun h => h.imp_right .inl
    exact ⟨congrArg (fun t => Host.Outcome.next (settle s t)) hstays, hstays⟩
  · refine congrArg (fun t => Host.Outcome.next (settle s t)) (endTest_stays fun x hx => ?_)
    cases ((laneOrder_of_entry he).trans ho).symm.trans hx
    exact .inr hstays
  · refine ⟨_, rfl, ?_⟩
    rw [endTest_reports ((laneOrder_of_entry he).trans ho) hlife hcause hlive hnone]
    obtain ⟨hslots, hentries⟩ := toReporting_others he ho (stopResult c o)
    exact ⟨toReporting_reports he ho _, toReporting_generator he _, samePort_toReporting _ _ _, by simp, by simp, sameArraySide_toReporting _ _ _,
      by simp, hslots, hentries⟩

end Sys2Proof.Safety
end

section
/-! PROOFS. What no operation on orders changes: the lane queues, the oldest-open sequence and the release flag; and what follows a command at the same event (R78, R174, R186). -/

namespace Sys2Proof.Safety

open Sys2Proof.Machine

/-! ## The lane queues, the oldest-open sequence and the release flag -/

/-- What only takes, promotions, reports and releases change. -/
def standing (s : State) : Vector (List SlotId) 4 × Word × Bool := (s.pool.queues, s.pool.oldestOpen, s.reporting.releaseInProgress)

theorem standing_congr {s t : State} (hpool : t.pool = s.pool) (hreporting : t.reporting = s.reporting) : standing t = standing s := by
  rw [standing, hpool, hreporting]
  rfl

theorem standing_foldl {α : Type} {f : State → α → State} (h : ∀ t a, standing (f t a) = standing t) (l : List α) (s : State) :
    standing (l.foldl f s) = standing s := by
  induction l generalizing s with
  | nil => rfl
  | cons a l ih => exact (ih (f s a)).trans (h s a)

@[simp] theorem standing_requestHeaderUpdate (s : State) : standing (requestHeaderUpdate s) = standing s := by
  unfold requestHeaderUpdate
  split <;> rfl

@[simp] theorem standing_placeRequest (r : Request) (s : State) : standing (placeRequest r s) = standing s := rfl

@[simp] theorem standing_setGenerator (l : Lane) (g : Option Generator) (s : State) : standing (setGenerator l g s) = standing s := rfl

@[simp] theorem standing_updateLane (l : Lane) (f : PoolOrder → PoolOrder) (g : TableEntry → TableEntry) (s : State) :
    standing (updateLane l f g s) = standing s := by
  unfold updateLane
  (repeat' split) <;> rfl

@[simp] theorem standing_mapRegions (f : RegionId → Region → Region) (s : State) : standing (mapRegions f s) = standing s :=
  standing_congr (by simp) (by simp)

@[simp] theorem standing_handK (b : BankId) (s : State) : standing (handK b s) = standing s :=
  standing_congr (by simp) (by simp)

@[simp] theorem standing_handAllK (s : State) : standing (handAllK s) = standing s :=
  standing_congr (by simp) (by simp)

@[simp] theorem standing_dropArming (n : OrderName) (s : State) : standing (dropArming n s) = standing s :=
  standing_congr (by simp) (by simp)

@[simp] theorem standing_lostSetFollow (before : BitVec 64) (s : State) : standing (lostSetFollow before s) = standing s := by
  unfold lostSetFollow
  split <;> simp

@[simp] theorem standing_toReporting (l : Lane) (r : OrderResult) (s : State) : standing (toReporting l r s) = standing s := by
  unfold toReporting
  split <;> simp

@[simp] theorem standing_endTest (l : Lane) (s : State) : standing (endTest l s) = standing s := by
  unfold endTest
  (repeat' split) <;> simp

@[simp] theorem standing_stopOrder (l : Lane) (c : Option StopCause) (s : State) : standing (stopOrder l c s) = standing s := by
  unfold stopOrder stopIssuing
  (repeat' split) <;> simp

@[simp] theorem standing_toStopping (l : Lane) (c : Option StopCause) (s : State) : standing (toStopping l c s) = standing s := by
  unfold toStopping
  split <;> simp

@[simp] theorem standing_orderComplete (l : Lane) (r : OrderResult) (s : State) : standing (orderComplete l r s) = standing s := by
  unfold orderComplete
  split <;> simp

@[simp] theorem standing_powerComplete (n : Option OrderName) (s : State) : standing (powerComplete n s) = standing s := by
  unfold powerComplete
  (repeat' split) <;> simp

/-! ## Strokes -/

@[simp] theorem standing_joinBank (b : BankId) (q : BankRequest) (s : State) : standing (joinBank b q s) = standing s := rfl

@[simp] theorem standing_dataCompleteTest (l : Lane) (s : State) : standing (dataCompleteTest l s) = standing s := by
  unfold dataCompleteTest
  (repeat' split) <;> simp

@[simp] theorem standing_endTests (l : Lane) (s : State) : standing (endTests l s) = standing s := by simp [endTests]

@[simp] theorem standing_strokeFails (r : StrokeRecord) (c : StopCause) (s : State) : standing (strokeFails r c s) = standing s := by
  unfold strokeFails
  dsimp only
  split
  · rfl
  · rw [standing_stopOrder, updateGenerator, standing_setGenerator]
    rfl

@[simp] theorem standing_placeBankRequest (r : StrokeRecord) (a : Nat) (k : BankRequestKind) (s : State) :
    standing (placeBankRequest r a k s) = standing s := by
  unfold placeBankRequest
  split <;> simp

@[simp] theorem standing_placeFirstStep (r : StrokeRecord) (aux : Word) (s : State) : standing (placeFirstStep r aux s) = standing s := by
  unfold placeFirstStep
  split <;> simp

@[simp] theorem standing_issueStroke (l : Lane) (b : Option BufferId) (s : State) : standing (issueStroke l b s) = standing s := by
  unfold issueStroke
  dsimp only
  split
  · rfl
  · split
    · simp
    · rw [standing_placeFirstStep, updateGenerator, standing_setGenerator]
      cases b <;> rfl

@[simp] theorem standing_issueAlone (n : Nat) (l : Lane) (s : State) : standing (issueAlone n l s) = standing s := by
  induction n generalizing s with
  | zero => rfl
  | succ n ih =>
    unfold issueAlone
    split <;> simp [ih]

@[simp] theorem standing_grantBuffer (l : Lane) (b : BufferId) (s : State) : standing (grantBuffer l b s) = standing s := by
  unfold grantBuffer
  dsimp only
  split
  · rfl
  · split
    · simp
    · exact standing_issueStroke _ _ _

@[simp] theorem standing_grantBuffers (n : Nat) (s : State) : standing (grantBuffers n s) = standing s := by
  induction n generalizing s with
  | zero => rfl
  | succ n ih =>
    unfold grantBuffers
    split <;> simp [ih]

@[simp] theorem standing_issueMore (l : Lane) (s : State) : standing (issueMore l s) = standing s := by simp [issueMore, grants]

@[simp] theorem standing_strokeFailed (r : StrokeRecord) (c : StopCause) (s : State) : standing (strokeFailed r c s) = standing s := by
  simp [strokeFailed]

/-! ## Domains -/

@[simp] theorem standing_startWake (s : State) : standing (startWake s) = standing s := by
  rw [startWake, standing_requestHeaderUpdate]
  rfl

@[simp] theorem standing_sleepEntryTest (s : State) : standing (sleepEntryTest s) = standing s := by
  unfold sleepEntryTest endSleepEntry
  (repeat' split)
  · simp
  · rw [standing_requestHeaderUpdate]
    rfl
  · rfl

@[simp] theorem standing_wakeFollow (s : State) : standing (wakeFollow s) = standing s := by
  unfold wakeFollow
  split <;> simp

@[simp] theorem standing_discardStroke (s : State) (r : StrokeRecord) : standing (discardStroke s r) = standing s := by
  unfold discardStroke
  split <;> simp

@[simp] theorem standing_dropPower (d : DomainId) (s : State) : standing (dropPower d s) = standing s :=
  standing_congr (by simp) (by simp)

@[simp] theorem standing_startDrain (v : Served) (s : State) : standing (startDrain v s) = standing s := by
  unfold startDrain
  dsimp only
  rw [standing_sleepEntryTest, standing_foldl standing_discardStroke, standing_lostSetFollow, standing_dropPower, setDomain,
    standing_requestHeaderUpdate]
  rfl

@[simp] theorem standing_drainTest (s : State) : standing (drainTest s) = standing s := by
  unfold drainTest
  (repeat' split) <;> simp

@[simp] theorem standing_reportStoodDown (b : BankId) (s : State) : standing (reportStoodDown b s) = standing s := by
  unfold reportStoodDown
  (repeat' split)
  · rfl
  · rw [standing_drainTest]
    rfl
  · rw [standing_drainTest]
    rfl
  · rfl

@[simp] theorem standing_standDownAt (b : BankId) (s : State) : standing (standDownAt b s) = standing s := by
  unfold standDownAt
  split
  · rfl
  · rw [standing_reportStoodDown]
    rfl
  · rw [standing_reportStoodDown]
    rfl
  all_goals rfl

@[simp] theorem standing_takeRequests (n : Nat) (s : State) : standing (takeRequests n s) = standing s := by
  induction n generalizing s with
  | zero => rfl
  | succ n ih =>
    unfold takeRequests
    split
    · split
      · rw [ih, standing_powerComplete]
        rfl
      · split
        · rw [startRampUp, setDomain, standing_requestHeaderUpdate]
          rfl
        · rw [startStandDown, standing_standDownAt, standing_standDownAt]
          rfl
    · rfl

@[simp] theorem standing_switchTakes (s : State) : standing (switchTakes s) = standing s := standing_takeRequests _ s

/-! ## Starts -/

@[simp] theorem standing_startDrop (l : Lane) (f : Footprint) (s : State) : standing (startDrop l f s) = standing s := by
  simp [startDrop]

@[simp] theorem standing_startKeep (l : Lane) (o : PoolOrder) (f : Footprint) (s : State) : standing (startKeep l o f s) = standing s := by
  unfold startKeep
  dsimp only
  split
  · simp
  · simp

@[simp] theorem standing_startPower (l : Lane) (o : PoolOrder) (s : State) : standing (startPower l o s) = standing s := by
  unfold startPower
  split
  · simp
  · rw [standing_switchTakes]
    rfl

@[simp] theorem standing_startOrder (l : Lane) (o : PoolOrder) (k : OrderKind) (f : Footprint) (s : State) :
    standing (startOrder l o k f s) = standing s := by
  unfold startOrder
  dsimp only
  (repeat' split) <;> simp

@[simp] theorem standing_runStartTest (l : Lane) (s : State) : standing (runStartTest l s) = standing s := by
  unfold runStartTest testOrder setWait
  (repeat' split) <;> simp

@[simp] theorem standing_startTests (s : State) : standing (startTests s) = standing s := by
  have hround (t : State) : standing (testLanes t) = standing t := standing_foldl (fun t l => standing_runStartTest l t) _ t
  simp [startTests, hround]

@[simp] theorem standing_markTest (l : Lane) (s : State) : standing (markTest l s) = standing s := by
  unfold markTest
  (repeat' split) <;> simp

/-! ## The follow-ups of an event -/

theorem standing_retestIfMoved (s u : State) : standing (retestIfMoved s u) = standing u := by
  unfold retestIfMoved
  split <;> simp

/-- What one issue leaves of the intake and the reporting logic. -/
theorem issueAccess_leaves (s : State) : (issueAccess s).intake = { s.intake with nudgePending := (issueAccess s).intake.nudgePending }
    ∧ (issueAccess s).reporting.releaseInProgress = s.reporting.releaseInProgress := by
  unfold issueAccess
  (repeat' split)
  · exact ⟨rfl, rfl⟩
  · exact ⟨rfl, rfl⟩
  · rename_i r _
    rw [issueRequest, issueEffect_eq]
    dsimp only
    constructor <;> split <;> rfl

theorem idleFollow_eq (v : State) : idleFollow v = { v with arrayMode := { v.arrayMode with idleTimer := (idleFollow v).arrayMode.idleTimer } } := by
  unfold idleFollow
  (repeat' split) <;> rfl

theorem idleFollow_timer (v : State) : (idleFollow v).arrayMode.idleTimer =
    if v.arrayMode.mode = .run ∧ busy v = false then
      if v.arrayMode.idleTimer.isSome then v.arrayMode.idleTimer else idleIntervalUs v.port.idleSleep
    else none := by
  unfold idleFollow
  by_cases h : v.arrayMode.mode = .run ∧ busy v = false
  · obtain ⟨hmode, hbusy⟩ := h
    simp only [hmode, hbusy, beq_self_eq_true, Bool.not_false, Bool.and_self, and_self, if_true]
    split <;> rfl
  · rw [if_neg h, if_neg (by simpa using h)]

theorem busy_iff (u : State) :
    busy u = true ↔ ∃ l, laneLife u l = some .waiting ∨ laneLife u l = some .running ∨ laneLife u l = some .stopping := by
  rw [busy, List.any_eq_true]
  refine exists_congr fun l => ?_
  rw [and_iff_right (mem_allLanes l)]
  cases laneLife u l with
  | none => simp
  | some x => cases x <;> simp

theorem tableView_eq_iff (s u : State) : tableView u = tableView s ↔ ∀ l : Lane, (laneEntry u l).map (·.slot) = (laneEntry s l).map (·.slot)
    ∧ laneLife u l = laneLife s l ∧ (laneEntry u l).map (·.footprint.isSome) = (laneEntry s l).map (·.footprint.isSome) := by
  rw [tableView, tableView, List.map_inj_left]
  refine forall_congr' fun l => ?_
  rw [forall_prop_of_true (mem_allLanes l)]
  constructor
  · intro h
    cases hu : laneEntry u l with
    | none =>
      rw [hu] at h
      have hs : laneEntry s l = none := Option.map_eq_none_iff.mp h.symm
      simp [hs, laneLife, laneOrder, hu]
    | some d =>
      rw [hu] at h
      obtain ⟨e, hs, hview⟩ := Option.map_eq_some_iff.mp h.symm
      obtain ⟨hslot, hlife, hfootprint⟩ : e.slot = d.slot ∧ laneLife s l = laneLife u l ∧ e.footprint.isSome = d.footprint.isSome := by
        simpa using hview
      simp [hs, hslot, hlife, hfootprint]
  · rintro ⟨hslot, hlife, hfootprint⟩
    cases hu : laneEntry u l with
    | none =>
      rw [hu] at hslot
      rw [Option.map_eq_none_iff.mp hslot.symm]
      rfl
    | some d =>
      rw [hu] at hslot hfootprint
      obtain ⟨e, hs, hview⟩ := Option.map_eq_some_iff.mp hslot.symm
      rw [hs] at hfootprint
      have hsome : d.footprint.isSome = e.footprint.isSome := by simpa using hfootprint
      simp [hs, hview, hlife, hsome]

theorem startTests_rounds (u : State) :
    startTests u = [0, 1, 2, 3, 0, 1, 2, 3, 0, 1, 2, 3, 0, 1, 2, 3].foldl (fun v l => runStartTest l v) u := by
  have hlanes : allLanes = [0, 1, 2, 3] := by decide
  simp only [startTests, testLanes, hlanes, List.foldl_cons, List.foldl_nil]

/-- Settles O55: what the follow-ups of an event test, and what they leave. -/
theorem followUpsLeaveTheRest : Obligations.FollowUpsLeaveTheRest := by
  intro s u
  obtain ⟨hintake, hrelease⟩ := issueAccess_leaves (idleFollow (retestIfMoved s u))
  have hstanding := standing_retestIfMoved s u
  simp only [standing, Prod.mk.injEq] at hstanding
  obtain ⟨hqueues, hoist, hprogress⟩ := hstanding
  refine ⟨by simp [SamePort, settle], by simp, ?_, by simp [settle], ?_, ?_, by simp [settle], by simp [settle], fun hview => ?_,
    tableView_eq_iff s u, fun _ => rfl, startTests_rounds u, busy_iff u, ?_⟩
  · simpa [settle] using hintake
  · exact hrelease.trans (by simpa using hprogress)
  · have hpool : (settle s u).pool = (retestIfMoved s u).pool := by simp [settle]
    have hparts : (retestIfMoved s u).pool.taken = u.pool.taken ∧ (retestIfMoved s u).pool.finished = u.pool.finished
        ∧ (retestIfMoved s u).pool.cancelList = u.pool.cancelList := by simp
    obtain ⟨htaken, hfinished, hcancels⟩ := hparts
    rw [hpool]
    generalize (retestIfMoved s u).pool = p at *
    cases p
    simp_all
  · have hstill : retestIfMoved s u = u := if_pos hview
    have hsettle : settle s u = issueAccess (idleFollow u) := by rw [settle, hstill]
    rw [hsettle]
    refine ⟨by simp [SameOrders], by simp [SameArraySide], ?_⟩
    simp only [issueAccess_frame]
    rw [idleFollow_eq]
  · intro v hv
    have hv : v = retestIfMoved s u := hv
    subst hv
    have htimer : (settle s u).arrayMode.idleTimer = (idleFollow (retestIfMoved s u)).arrayMode.idleTimer := by simp [settle]
    rw [htimer, idleFollow_timer]
    refine ⟨⟨_, rfl, idleFollow_eq _⟩, fun h => if_neg ?_, fun hmode hbusy hnone => ?_, fun hmode hbusy hsome => ?_⟩
    · rintro ⟨hmode, hbusy⟩
      exact h.elim (absurd hmode) fun hb => absurd (hbusy.symm.trans hb) (by decide)
    · rw [if_pos ⟨hmode, hbusy⟩, if_neg (by simp [hnone])]
    · rw [if_pos ⟨hmode, hbusy⟩, if_pos hsome]

end Sys2Proof.Safety
end

section
/-! PROOFS. What the operations on orders and domains make of the table: no entry changes but that of an order that reports (R70, R86). -/

namespace Sys2Proof.Safety

open Sys2Proof.Machine

/-! ## Entries change only by a report -/

/-- From `s` to `t` each entry stays or is left as a report leaves it. -/
def ReportsOnly (s t : State) : Prop := ∀ l, laneEntry t l = laneEntry s l ∨ laneEntry t l = (laneEntry s l).map reportEntry

theorem reportEntry_reportEntry (e : TableEntry) : reportEntry (reportEntry e) = reportEntry e := by
  unfold reportEntry
  cases e.started <;> rfl

theorem ReportsOnly.refl (s : State) : ReportsOnly s s := fun _ => .inl rfl

theorem ReportsOnly.of_table {s t : State} (h : t.table = s.table) : ReportsOnly s t := fun l => .inl (laneEntry_congr h l)

theorem ReportsOnly.trans {s t u : State} (h : ReportsOnly s t) (h' : ReportsOnly t u) : ReportsOnly s u := fun l => by
  have hidem : reportEntry ∘ reportEntry = reportEntry := funext reportEntry_reportEntry
  obtain ht | ht := h l <;> obtain hu | hu := h' l
  · exact .inl (hu.trans ht)
  · exact .inr (by rw [hu, ht])
  · exact .inr (hu.trans ht)
  · exact .inr (by rw [hu, ht, Option.map_map, hidem])

theorem ReportsOnly.ite {s t u : State} {c : Prop} [Decidable c] (ht : ReportsOnly s t) (hu : ReportsOnly s u) :
    ReportsOnly s (if c then t else u) := by
  split
  · exact ht
  · exact hu

theorem ReportsOnly.foldl {α : Type} {f : State → α → State} (h : ∀ t a, ReportsOnly t (f t a)) (l : List α) (s : State) :
    ReportsOnly s (l.foldl f s) := by
  induction l generalizing s with
  | nil => exact .refl s
  | cons a l ih => exact (h s a).trans (ih (f s a))

/-- An entry that a report would leave as it is stays. -/
theorem ReportsOnly.fixed {s t : State} (h : ReportsOnly s t) {l : Lane} {e : TableEntry} (he : laneEntry s l = some e)
    (hfixed : reportEntry e = e) : laneEntry t l = some e := by
  obtain ht | ht := h l
  · exact ht.trans he
  · rw [ht, he, Option.map_some, hfixed]

theorem ReportsOnly.after_updateOrder (l : Lane) (f : PoolOrder → PoolOrder) (s : State) : ReportsOnly s (updateLane l f id s) := by
  intro m
  cases ho : laneOrder s l with
  | none => rw [updateLane_empty ho]; exact .inl rfl
  | some o =>
    obtain ⟨e, he, ho⟩ := laneOrder_eq_some ho
    rw [(updateLane_held he ho).2]
    split
    · rename_i hm
      exact .inl (by rw [hm, he]; rfl)
    · exact .inl rfl

theorem ReportsOnly.after_toReporting (l : Lane) (r : OrderResult) (s : State) : ReportsOnly s (toReporting l r s) := by
  cases he : laneEntry s l with
  | none => rw [toReporting_empty he]; exact .refl s
  | some e =>
    rw [toReporting_eq he]
    intro m
    cases ho : slotOrder s e.slot with
    | none =>
      rw [updateLane_empty ((laneOrder_of_entry he).trans ho)]
      exact .inl rfl
    | some o =>
      refine (Decidable.em (m = l)).elim (fun hm => .inr ?_) fun hm => .inl ?_
      · exact ((updateLane_held he ho).2 m).trans (by rw [if_pos hm, hm, he]; rfl)
      · exact ((updateLane_held he ho).2 m).trans (by rw [if_neg hm])

theorem ReportsOnly.after_endTest (l : Lane) (s : State) : ReportsOnly s (endTest l s) := by
  unfold endTest
  split
  · exact .refl s
  · split
    · exact .refl s
    · exact .ite (.after_toReporting _ _ s) (.refl s)

theorem ReportsOnly.after_stopOrder (l : Lane) (c : Option StopCause) (s : State) : ReportsOnly s (stopOrder l c s) := by
  by_cases hrunning : ∃ o, laneOrder s l = some o ∧ o.life = .running
  · obtain ⟨o, ho, hlife⟩ := hrunning
    rw [stopOrder_running ho hlife]
    exact (ReportsOnly.after_updateOrder l (fun o => { o with life := .stopping, stopCause := c }) s).trans (.of_table (by simp [stopLane]))
  · rw [stopOrder_of_not_running fun o ho hlife => hrunning ⟨o, ho, hlife⟩]
    exact .refl s

theorem ReportsOnly.after_toStopping (l : Lane) (c : Option StopCause) (s : State) : ReportsOnly s (toStopping l c s) :=
  .ite ((ReportsOnly.after_stopOrder l c s).trans (.after_endTest l _)) (.refl s)

theorem ReportsOnly.after_powerComplete (n : Option OrderName) (s : State) : ReportsOnly s (powerComplete n s) := by
  unfold powerComplete
  split
  · exact .refl s
  · exact .ite (.ite (.after_toReporting _ _ s) (.after_endTest _ s)) (.refl s)

/-! ## Strokes -/

theorem ReportsOnly.after_endTests (l : Lane) (s : State) : ReportsOnly s (endTests l s) := by
  refine ReportsOnly.trans (t := dataCompleteTest l s) ?_ (.after_endTest l _)
  unfold dataCompleteTest
  split
  · exact .ite (.after_toReporting _ _ s) (.refl s)
  · exact .refl s

theorem ReportsOnly.after_strokeFails (r : StrokeRecord) (c : StopCause) (s : State) : ReportsOnly s (strokeFails r c s) := by
  unfold strokeFails
  exact .ite (.of_table rfl) ((ReportsOnly.of_table rfl).trans (.after_stopOrder _ _ _))

theorem ReportsOnly.after_placeBankRequest (r : StrokeRecord) (a : Nat) (k : BankRequestKind) (s : State) :
    ReportsOnly s (placeBankRequest r a k s) :=
  .ite ((ReportsOnly.after_strokeFails r _ s).trans (.after_endTest _ _)) (.of_table rfl)

theorem ReportsOnly.after_placeFirstStep (r : StrokeRecord) (aux : Word) (s : State) : ReportsOnly s (placeFirstStep r aux s) := by
  unfold placeFirstStep
  split
  · exact .of_table rfl
  all_goals exact .after_placeBankRequest _ _ _ s

theorem ReportsOnly.after_issueStroke (l : Lane) (b : Option BufferId) (s : State) : ReportsOnly s (issueStroke l b s) := by
  unfold issueStroke
  dsimp only
  split
  · exact .refl s
  · split
    · exact .after_toStopping _ _ s
    · exact (ReportsOnly.of_table (by cases b <;> rfl)).trans (.after_placeFirstStep _ _ _)

theorem ReportsOnly.after_issueAlone (n : Nat) (l : Lane) (s : State) : ReportsOnly s (issueAlone n l s) := by
  induction n generalizing s with
  | zero => exact .refl s
  | succ n ih => exact .ite ((ReportsOnly.after_issueStroke l none s).trans (ih _)) (.refl s)

theorem ReportsOnly.after_grantBuffer (l : Lane) (b : BufferId) (s : State) : ReportsOnly s (grantBuffer l b s) := by
  unfold grantBuffer
  dsimp only
  split
  · exact .refl s
  · exact .ite (.after_issueStroke _ _ s) ((ReportsOnly.of_table rfl).trans (.after_issueStroke _ _ _))

theorem ReportsOnly.after_grantBuffers (n : Nat) (s : State) : ReportsOnly s (grantBuffers n s) := by
  induction n generalizing s with
  | zero => exact .refl s
  | succ n ih =>
    unfold grantBuffers
    split
    · exact (ReportsOnly.after_grantBuffer _ _ s).trans (ih _)
    · exact .refl s

theorem ReportsOnly.after_issueMore (l : Lane) (s : State) : ReportsOnly s (issueMore l s) :=
  (ReportsOnly.after_issueAlone _ l s).trans (.after_grantBuffers _ _)

/-! ## Domains -/

theorem sleepEntryTest_table (s : State) : (sleepEntryTest s).table = s.table := by simp

theorem ReportsOnly.after_discardStroke (s : State) (r : StrokeRecord) : ReportsOnly s (discardStroke s r) :=
  .ite (((ReportsOnly.after_strokeFails r _ s).trans (.after_issueMore _ _)).trans (.after_endTests _ _)) (.refl s)

theorem ReportsOnly.after_drainTest (s : State) : ReportsOnly s (drainTest s) := by
  unfold drainTest
  split
  · refine .ite ?_ (.refl s)
    unfold startDrain
    dsimp only
    refine ReportsOnly.trans ?_ (.of_table (sleepEntryTest_table _))
    exact ReportsOnly.trans (.of_table (by simp)) (.foldl .after_discardStroke _ _)
  · exact .refl s

theorem ReportsOnly.after_reportStoodDown (b : BankId) (s : State) : ReportsOnly s (reportStoodDown b s) := by
  unfold reportStoodDown
  split
  · exact .refl s
  · exact .ite ((ReportsOnly.of_table rfl).trans (.after_drainTest _)) (.refl s)

theorem ReportsOnly.after_standDownAt (b : BankId) (s : State) : ReportsOnly s (standDownAt b s) := by
  unfold standDownAt
  split
  · exact .refl s
  · exact (ReportsOnly.of_table rfl).trans (.after_reportStoodDown b _)
  · exact (ReportsOnly.of_table rfl).trans (.after_reportStoodDown b _)
  all_goals exact .of_table rfl

theorem ReportsOnly.after_takeRequests (n : Nat) (s : State) : ReportsOnly s (takeRequests n s) := by
  induction n generalizing s with
  | zero => exact .refl s
  | succ n ih =>
    unfold takeRequests
    split
    · refine .ite (((ReportsOnly.of_table (t := popRequest s) rfl).trans (.after_powerComplete _ _)).trans (ih _)) (.ite (.of_table (by simp)) ?_)
      unfold startStandDown
      refine ReportsOnly.trans (ReportsOnly.trans ?_ (.after_standDownAt _ _)) (.after_standDownAt _ _)
      exact .of_table rfl
    · exact .refl s

theorem ReportsOnly.after_switchTakes (s : State) : ReportsOnly s (switchTakes s) := .after_takeRequests _ s

/-! ## Starts -/

theorem ReportsOnly.after_startDrop (l : Lane) (f : Footprint) (s : State) : ReportsOnly s (startDrop l f s) :=
  (ReportsOnly.of_table (by simp)).trans (.after_toReporting _ _ _)

theorem ReportsOnly.after_startKeep (l : Lane) (o : PoolOrder) (f : Footprint) (s : State) : ReportsOnly s (startKeep l o f s) :=
  .ite (.after_toReporting _ _ s) ((ReportsOnly.of_table (by simp)).trans (.after_issueMore _ _))

theorem ReportsOnly.after_startPower (l : Lane) (o : PoolOrder) (s : State) : ReportsOnly s (startPower l o s) :=
  .ite (.after_toReporting _ _ s) ((ReportsOnly.of_table rfl).trans (.after_switchTakes _))

/-- What a start does after the order is RUNNING and its entry is marked started. -/
theorem startOrder_reportsOnly (l : Lane) (o : PoolOrder) (k : OrderKind) (f : Footprint) (s : State) :
    ReportsOnly (beginLane l s) (startOrder l o k f s) := by
  have hissue : ReportsOnly (beginLane l s) (issueMore l (setGenerator l (some (dataGenerator o.entry)) (beginLane l s))) :=
    (ReportsOnly.of_table rfl).trans (.after_issueMore l _)
  cases k with
  | load | fetch | copy | fill | scrub => exact hissue
  | retain => exact .ite (.after_startKeep l o f _) (.after_startDrop l f _)
  | power => exact .after_startPower l o _
  | mark => exact .refl _

end Sys2Proof.Safety
end

section
/-! PROOFS. Admission: the promotion of a queue head, and the start test (R54, R71 to R82). -/

namespace Sys2Proof.Safety

open Sys2Proof.Machine

/-! ## The start test (R77 to R80) -/

section StartTest

variable {s : State} {l : Lane} {e : TableEntry} {o : PoolOrder} {f : Footprint} {k : OrderKind}

theorem runStartTest_stays (h : ∀ o, laneOrder s l = some o → o.life ≠ .waiting ∨ o.kind = some .mark ∨ s.engine.state = .halted) :
    runStartTest l s = s := by
  unfold runStartTest
  split
  · rename_i e o he ho
    split
    · rename_i f k hf hk
      refine if_neg fun htest => ?_
      simp only [Bool.and_eq_true, beq_iff_eq, Bool.not_eq_true', engineIs, beq_eq_false_iff_ne] at htest
      obtain ⟨⟨hlife, hmark⟩, hlive⟩ := htest
      simpa [hlife, hk, hmark, hlive] using h o ho
    · rfl
  · rfl

theorem runStartTest_tests (he : laneEntry s l = some e) (ho : slotOrder s e.slot = some o) (hf : e.footprint = some f)
    (hk : o.kind = some k) (hlife : o.life = .waiting) (hmark : k ≠ .mark) (hlive : s.engine.state ≠ .halted) :
    runStartTest l s = testOrder l o k f s := by
  simp [runStartTest, he, laneOrder_of_entry he, ho, hf, hk, hlife, hmark, engineIs, hlive]

theorem setWait_eq (he : laneEntry s l = some e) (ho : slotOrder s e.slot = some o) (w : WaitReason) :
    setWait l w s = { s with table := s.table.set l (some { e with wait := some w }) } := by
  have hself : s.pool.slots.set e.slot (some o) = s.pool.slots := by
    rw [← show s.pool.slots[e.slot] = some o from ho]
    exact Vector.set_getElem_self _
  simp only [setWait, updateLane, he, ho, id_eq, setEntry, setSlot, hself]

theorem testOrder_waits (h : interlockFails s l o f = true) : testOrder l o k f s = setWait l .interlock s := if_pos h

theorem testOrder_refuses {c : OutcomeCode} (h : interlockFails s l o f = false) (hcheck : startCheck s k f = some c) :
    testOrder l o k f s = toReporting l (plainResult c) s := by
  rw [testOrder, if_neg (by simp [h]), hcheck]

theorem testOrder_starts (h : interlockFails s l o f = false) (hcheck : startCheck s k f = none) (hmode : s.arrayMode.mode = .run) :
    testOrder l o k f s = startOrder l o k f s := by
  rw [testOrder, if_neg (by simp [h]), hcheck]
  exact if_pos (by simp [hmode])

theorem testOrder_wakes (h : interlockFails s l o f = false) (hcheck : startCheck s k f = none) (hmode : s.arrayMode.mode ≠ .run) :
    testOrder l o k f s = wakeFollow (setWait l .array s) := by
  rw [testOrder, if_neg (by simp [h]), hcheck]
  exact if_neg (by simp [hmode])

theorem startCheck_none (h : ∀ x ∈ f.regions, startState k (regionState s x) = none) : startCheck s k f = none :=
  List.findSome?_eq_none_iff.mpr h

/-- The lowest-numbered region whose state is not allowed gives the outcome (R79). -/
theorem startCheck_first {allowed others : List RegionId} {r : RegionId} {c : OutcomeCode} (hlist : f.regions = allowed ++ r :: others)
    (h : ∀ x ∈ allowed, startState k (regionState s x) = none) (hr : startState k (regionState s r) = some c) :
    startCheck s k f = some c := by
  rw [startCheck, hlist, List.findSome?_append, List.findSome?_eq_none_iff.mpr h, List.findSome?_cons, hr]
  rfl

/-- An order that waits ARRAY demands a wake. -/
theorem wakeDemand_of_waits {e : TableEntry} (he : laneEntry s l = some e) (ho : slotOrder s e.slot = some o) (hlife : o.life = .waiting)
    (hwait : e.wait = some .array) : wakeDemand s = true :=
  List.any_eq_true.mpr ⟨l, mem_allLanes l, (laneWaits_iff he ho).mpr ⟨hlife, hwait⟩⟩

theorem wakeFollow_of_not_asleep (h : s.arrayMode.mode ≠ .asleep) : wakeFollow s = s := if_neg (by simp [h])

theorem wakeFollow_of_demand (h : s.arrayMode.mode = .asleep) (hdemand : wakeDemand s = true) : wakeFollow s = startWake s :=
  if_pos (by simp [h, hdemand])

end StartTest

/-- Settles O34: the interlock, the refusals by region state and the wait for the array. -/
theorem startTestRefusesOrWaits : Obligations.StartTestRefusesOrWaits := by
  refine ⟨fun s l h => ?_, interlockFails_eq_false_iff, fun s l e o f k he ho hf hk hlife hstarted hmark hlive => ?_⟩
  · have hstays := runStartTest_stays h
    exact ⟨congrArg (fun t => Host.Outcome.next (settle s t)) hstays, hstays⟩
  · have htests := runStartTest_tests he ho hf hk hlife hmark hlive
    refine ⟨fun hback => ?_, fun hclear => ?_⟩
    · have hfails : interlockFails s l o f = true := by
        obtain ⟨m, d, y, g, hm, hd, hy, hg, hconflict, hholds⟩ := hback
        refine Bool.eq_false_imp_eq_true.mp fun hfalse => ?_
        obtain ⟨hseq, hrunning, hstopping⟩ := (interlockFails_eq_false_iff s l o f).mp hfalse m d y g hm hd hy hg hconflict
        simp [hseq, hrunning, hstopping] at hholds
      have hwaits : runStartTest l s = { s with table := s.table.set l (some { e with wait := some .interlock }) } := by
        rw [htests, testOrder_waits hfails, setWait_eq he ho]
      exact ⟨hwaits, congrArg (fun t => Host.Outcome.next (settle s t)) hwaits⟩
    · have hpasses := (interlockFails_eq_false_iff s l o f).mpr hclear
      refine ⟨fun allowed r others c hlist hallowed hr => ⟨_, rfl, rfl, ?_⟩, fun hallowed hmode => ⟨_, rfl, rfl, ?_⟩⟩
      · rw [htests, testOrder_refuses hpasses (startCheck_first hlist hallowed hr)]
        obtain ⟨hslots, hentries⟩ := toReporting_others he ho (plainResult c)
        have hentry : reportEntry e = { e with wait := none, footprint := none } := by simp [reportEntry, hstarted]
        exact ⟨toReporting_reports he ho _, hentry ▸ (toReporting_laneStep he ho _).entry_same, samePort_toReporting _ _ _, by simp, by simp,
          sameArraySide_toReporting _ _ _, by simp, hentries, hslots⟩
      · rw [htests, testOrder_wakes hpasses (startCheck_none hallowed) hmode, setWait_eq he ho]
        generalize hv : ({ s with table := s.table.set l (some { e with wait := some .array }) } : State) = v
        have hve : laneEntry v l = some { e with wait := some .array } := by
          rw [← hv]
          exact getElem_set_same _ _ _
        have hdemand : wakeDemand v = true := wakeDemand_of_waits hve (by rw [← hv]; exact ho) hlife rfl
        refine ⟨by simp [← hv], by simp [← hv], by simp [← hv], by simp [SamePort, ← hv], by simp [← hv], by simp [SameArraySide, ← hv],
          fun hasleep => ?_, fun hawake => ?_⟩
        · rw [wakeFollow_of_demand (by rw [← hv]; exact hasleep) hdemand, startWake]
          refine ⟨?_, headerAsked_requestHeaderUpdate _⟩
          simp [← hv, Config.wakeUs]
        · rw [wakeFollow_of_not_asleep (by rw [← hv]; exact hawake), ← hv]

/-! ## Promotion (R54, R55, R71, R73) -/

section Promotion

variable {s : State} {l : Lane} {i : SlotId} {rest : List SlotId} {o : PoolOrder}

theorem promote_stays (h : laneEntry s l ≠ none ∨ s.pool.queues[l] = [] ∨ engineLive s = false) : promote l s = s := by
  unfold promote
  split
  · rename_i i rest hempty hqueue
    obtain h | h | h := h
    · exact absurd hempty h
    · rw [hqueue] at h
      exact absurd h (by simp)
    · split
      · rw [h]
        rfl
      · rfl
  · rfl

/-- The head of the queue, not cancelled, goes through Admission. -/
theorem promote_head (h : AtHead s l i rest o) (hlive : engineLive s = true) : promote l s =
    if o.cancelMark then toReporting l (plainResult .cancelled) (queueToLane l i rest o none none s)
    else enterTable l i o (setSlot i (some { o with life := .waiting })
      { s with pool := { s.pool with queues := s.pool.queues.set l rest } }) := by
  obtain ⟨hempty, hqueue, ho⟩ := h
  simp only [promote, hempty, hqueue, ho, hlive, if_true, toReporting_queueToLane ho]

theorem promote_cancelled (h : AtHead s l i rest o) (hlive : engineLive s = true) (hmark : o.cancelMark = true) :
    promote l s = toReporting l (plainResult .cancelled) (queueToLane l i rest o none none s) := by
  rw [promote_head h hlive, if_pos hmark]

theorem promote_bad (h : AtHead s l i rest o) (hlive : engineLive s = true) (hmark : o.cancelMark = false) {reason : Nat}
    (hcheck : staticCheck o.entry = some reason) : promote l s =
      toReporting l { outcome := .badOrder, reason := reason, corrected := 0, done := 0 } (queueToLane l i rest o none none s) := by
  rw [promote_head h hlive, if_neg (by simp [hmark]), enterTable, hcheck]
  rfl

theorem promote_mark (h : AtHead s l i rest o) (hlive : engineLive s = true) (hmark : o.cancelMark = false)
    (hcheck : staticCheck o.entry = none) (hk : o.kind = some .mark) : promote l s =
      markTest l (queueToLane l i rest o (some (footprintOf o.entry .mark)) (some .earlier) s) := by
  rw [promote_head h hlive, if_neg (by simp [hmark]), enterTable, hcheck, hk]
  rfl

theorem promote_tests (h : AtHead s l i rest o) (hlive : engineLive s = true) (hmark : o.cancelMark = false)
    (hcheck : staticCheck o.entry = none) {k : OrderKind} (hk : o.kind = some k) (hother : k ≠ .mark) : promote l s =
      runStartTest l (queueToLane l i rest o (some (footprintOf o.entry k)) none s) := by
  rw [promote_head h hlive, if_neg (by simp [hmark]), enterTable, hcheck, hk]
  cases k with
  | mark => exact absurd rfl hother
  | _ => rfl

theorem standing_promote (h : AtHead s l i rest o) (hlive : engineLive s = true) :
    standing (promote l s) = (s.pool.queues.set l rest, s.pool.oldestOpen, s.reporting.releaseInProgress) := by
  rw [promote_head h hlive]
  split
  · rw [standing_toReporting]
    rfl
  · unfold enterTable
    split
    · rw [standing_toReporting]
      rfl
    · rw [standing_markTest]
      rfl
    · rw [standing_runStartTest]
      rfl
    · rfl

theorem laneEntry_queueToLane_same (f : Option Footprint) (w : Option WaitReason) :
    laneEntry (queueToLane l i rest o f w s) l = some { slot := i, wait := w, footprint := f, started := false } := by
  rw [laneEntry_queueToLane, if_pos rfl]

theorem slotOrder_queueToLane_same (f : Option Footprint) (w : Option WaitReason) :
    slotOrder (queueToLane l i rest o f w s) i = some { o with life := .waiting } := by
  rw [slotOrder_queueToLane, if_pos rfl]

theorem reports_queueToLane (f : Option Footprint) (w : Option WaitReason) (r : OrderResult) :
    Reports (toReporting l r (queueToLane l i rest o f w s)) i o r.outcome r.reason r.corrected r.done :=
  toReporting_reports (laneEntry_queueToLane_same f w) (slotOrder_queueToLane_same f w) r

theorem laneEntry_toReporting_queueToLane (f : Option Footprint) (w : Option WaitReason) (r : OrderResult) :
    laneEntry (toReporting l r (queueToLane l i rest o f w s)) l = some { slot := i, wait := none, footprint := none, started := false } :=
  (toReporting_laneStep (laneEntry_queueToLane_same f w) (slotOrder_queueToLane_same f w) r).entry_same

theorem sameArraySide_queueToLane (f : Option Footprint) (w : Option WaitReason) (r : OrderResult) :
    SameArraySide s (toReporting l r (queueToLane l i rest o f w s)) := sameArraySide_toReporting l r _

end Promotion

/-- Settles O30: what becomes of the head of a lane queue. -/
theorem promotionAdmitsTheHead : Obligations.PromotionAdmitsTheHead := by
  refine ⟨fun s l h => ?_, fun _ _ => rfl, fun s l i rest o hempty hqueue ho hlive => ⟨_, rfl, rfl, ?_⟩⟩
  · have hstays := promote_stays h
    exact ⟨congrArg (fun t => Host.Outcome.next (settle s t)) hstays, hstays⟩
  · have hhead : AtHead s l i rest o := ⟨hempty, hqueue, ho⟩
    have hstanding := standing_promote hhead hlive
    simp only [standing, Prod.mk.injEq] at hstanding
    obtain ⟨hqueues, hoist, -⟩ := hstanding
    refine ⟨by simp, by simp, by simp, hqueues, by simp, by simp, hoist, fun hmark => ?_, fun reason hmark hcheck => ?_,
      fun hmark hcheck hk hturn => ?_, fun hmark hcheck hk hturn => ?_, fun k hmark hcheck hk hother => promote_tests hhead hlive hmark hcheck hk hother⟩
    · rw [promote_cancelled hhead hlive hmark]
      exact ⟨reports_queueToLane _ _ _, laneEntry_toReporting_queueToLane _ _ _, sameArraySide_queueToLane _ _ _⟩
    · rw [promote_bad hhead hlive hmark hcheck]
      exact ⟨reports_queueToLane _ _ _, laneEntry_toReporting_queueToLane _ _ _, sameArraySide_queueToLane _ _ _⟩
    · rw [promote_mark hhead hlive hmark hcheck hk, markTest_finishes (laneEntry_queueToLane_same _ _)
        (slotOrder_queueToLane_same _ _) hk rfl rfl (not_halted_of_live (s := s) hlive) hturn]
      exact ⟨reports_queueToLane _ _ _, sameArraySide_queueToLane _ _ _⟩
    · rw [promote_mark hhead hlive hmark hcheck hk, markTest_stays fun d x hd hx => ?_]
      · exact ⟨slotOrder_queueToLane_same _ _, ⟨rfl, rfl, rfl, rfl, rfl⟩, laneEntry_queueToLane_same _ _⟩
      · have hx : laneOrder (queueToLane l i rest o (some (footprintOf o.entry .mark)) (some .earlier) s) l = some x :=
          (laneOrder_of_entry hd).trans hx
        cases laneOrder_queueToLane_same.symm.trans hx
        exact .inr (.inr (.inr (.inr hturn)))

end Sys2Proof.Safety
end

section
/-! PROOFS. The start of an order by its kind (R79, R80, R82, R92, R154, R155, R167). -/

namespace Sys2Proof.Safety

open Sys2Proof.Machine

section Start

variable {s : State} {l : Lane} {e : TableEntry} {o : PoolOrder}

/-! ## The first step of a start -/

theorem beginLane_eq (he : laneEntry s l = some e) (ho : slotOrder s e.slot = some o) : beginLane l s = { s with
    pool := { s.pool with slots := s.pool.slots.set e.slot (some { o with life := .running }) }
    table := s.table.set l (some { e with wait := none, started := true }) } := by
  simp only [beginLane, updateLane, he, ho]
  rfl

theorem beginLane_side (l : Lane) (s : State) : SameArraySide s (beginLane l s) := by simp [SameArraySide, beginLane]

theorem beginLane_slot (he : laneEntry s l = some e) (ho : slotOrder s e.slot = some o) :
    slotOrder (beginLane l s) e.slot = some { o with life := .running } := (beginLane_laneStep he ho).slot_same

/-- An order that has begun reports at the same event. -/
theorem reports_of_begun {v : State} (he : laneEntry s l = some e) (ho : slotOrder s e.slot = some o) (hpool : v.pool = (beginLane l s).pool)
    (htable : v.table = (beginLane l s).table) : Reports (toReporting l (plainResult .ok) v) e.slot o .ok 0 0 0 := by
  have hstep := (beginLane_laneStep he ho).congr hpool htable
  exact toReporting_reports hstep.entry_same hstep.slot_same (plainResult .ok)

/-! ## Region records that change at a start (R151, R154, R155, R162) -/

theorem headerAsked_lostSetFollow {before : BitVec 64} {t : State} (h : lostMap t ≠ before) : HeaderAsked (lostSetFollow before t) := by
  rw [lostSetFollow, if_neg h]
  exact headerAsked_requestHeaderUpdate t

/-- A region that is LOST no more changes the LOST set. -/
theorem lostMap_ne {t : State} {r : RegionId} (hs : s.regions[r].state = .lost) (ht : t.regions[r].state ≠ .lost) : lostMap t ≠ lostMap s :=
  fun h => ht ((lostMap_bit t r).mp (h ▸ (lostMap_bit s r).mpr hs))

/-- Change region records at one event and hand over every k. -/
def remap (g : RegionId → Region → Region) (s : State) : State := lostSetFollow (lostMap s) (handAllK (mapRegions g s))

theorem remap_frame (g : RegionId → Region → Region) (s : State) : (remap g s).port = s.port ∧ (remap g s).engine = s.engine
    ∧ (remap g s).intake = s.intake ∧ (remap g s).pool = s.pool ∧ (remap g s).table = s.table ∧ (remap g s).strokes = s.strokes := by
  simp [remap]

theorem remap_regions (g : RegionId → Region → Region) (s : State) (r : RegionId) : (remap g s).regions[r] = g r s.regions[r] := by
  rw [← mapRegions_get g s r]
  simp [remap]

theorem remap_handedK (g : RegionId → Region → Region) (s : State) (b : BankId) :
    HandedK s b (retainedCount (remap g s) b) (remap g s).refresh.banks[b] := by
  have hrefresh : (remap g s).refresh = (handAllK (mapRegions g s)).refresh := by simp [remap]
  rw [retainedCount_congr (t := remap g s) (s := handAllK (mapRegions g s)) (by simp [remap]), hrefresh]
  exact (handAllK_handedK (mapRegions g s) b).congr (by simp) (by simp) (by simp)

theorem headerAsked_remap {g : RegionId → Region → Region} {r : RegionId} (hlost : s.regions[r].state = .lost)
    (hgone : (g r s.regions[r]).state ≠ .lost) : HeaderAsked (remap g s) := by
  refine headerAsked_lostSetFollow (lostMap_ne hlost (r := r) ?_)
  rw [← mapRegions_get g s r] at hgone
  simpa using hgone

/-! ## The kinds of orders -/

/-- The record of a region in a DROP's selection (R154). -/
def dropped (f : Footprint) (r : RegionId) (x : Region) : Region :=
  if f.regions.contains r && (x.state == .kept || x.state == .lost) then Region.become .dropped else x

theorem startDrop_eq (l : Lane) (f : Footprint) (v : State) : startDrop l f v = toReporting l (plainResult .ok) (remap (dropped f) v) := rfl

theorem dropped_eq (f : Footprint) (r : RegionId) (x : Region) : dropped f r x =
    if r ∈ f.regions ∧ (x.state = .kept ∨ x.state = .lost) then { state := .dropped, owner := none, sweep := 0 } else x := by
  simp only [dropped, Bool.and_eq_true, List.contains_iff_mem, Bool.or_eq_true, beq_iff_eq]
  rfl

/-- The record of a region that a KEEP arms (R155). -/
def armed (n : OrderName) (list : List RegionId) (r : RegionId) (x : Region) : Region :=
  if list.contains r then { state := .arming, owner := some n, sweep := 0 } else x

theorem armed_eq (n : OrderName) (list : List RegionId) (r : RegionId) (x : Region) : armed n list r x =
    if r ∈ list then { state := .arming, owner := some n, sweep := 0 } else x := by
  simp only [armed, List.contains_iff_mem]

theorem startKeep_reports {v : State} {f : Footprint} (h : ∀ r ∈ f.regions, v.regions[r].state ≠ .dropped ∧ v.regions[r].state ≠ .lost) :
    startKeep l o f v = toReporting l (plainResult .ok) v := by
  have hnone : armingListOf v f = [] := List.filter_eq_nil_iff.mpr fun r hr => by
    simpa [regionState] using h r hr
  rw [startKeep, hnone]
  rfl

theorem startKeep_arms {v : State} {f : Footprint} (h : ∃ r ∈ f.regions, v.regions[r].state = .dropped ∨ v.regions[r].state = .lost) :
    startKeep l o f v = issueMore l (setGenerator l (some (armingGenerator (armingListOf v f)))
      (remap (armed { lane := l, seq := o.seq } (armingListOf v f)) v)) := by
  obtain ⟨r, hr, hstate⟩ := h
  have hmem : r ∈ armingListOf v f := List.mem_filter.mpr ⟨hr, by simpa [regionState] using hstate⟩
  exact if_neg (by simpa using List.ne_nil_of_mem hmem)

/-- A data order is handed to the Stroke Engine with its generator. -/
theorem startOrder_data {k : OrderKind} (hk : k.isData = true) (f : Footprint) :
    startOrder l o k f s = issueMore l (setGenerator l (some (dataGenerator o.entry)) (beginLane l s)) := by
  cases k with
  | load | fetch | copy | fill | scrub => rfl
  | retain | power | mark => exact absurd hk (by decide)

theorem startOrder_drop (hkeep : o.entry.keep = false) (f : Footprint) :
    startOrder l o .retain f s = toReporting l (plainResult .ok) (remap (dropped f) (beginLane l s)) := by
  rw [← startDrop_eq]
  exact if_neg (by simp [hkeep])

theorem startOrder_keep (hkeep : o.entry.keep = true) (f : Footprint) : startOrder l o .retain f s = startKeep l o f (beginLane l s) :=
  if_pos hkeep

theorem startOrder_power_done (f : Footprint) (h : s.domains.states[o.entry.domain] = endState o.entry.powerOn) :
    startOrder l o .power f s = toReporting l (plainResult .ok) (beginLane l s) := by
  refine if_pos ?_
  rw [← h]
  simp

/-- The request of a POWER order joins the list (R167). -/
def askPower (l : Lane) (o : PoolOrder) (s : State) : State :=
  { s with domains := { s.domains with
      requests := s.domains.requests ++ [{ domain := o.entry.domain, on := o.entry.powerOn, order := { lane := l, seq := o.seq } }] } }

theorem startOrder_power_asks (f : Footprint) (h : s.domains.states[o.entry.domain] ≠ endState o.entry.powerOn) :
    startOrder l o .power f s = switchTakes (askPower l o (beginLane l s)) := by
  refine if_neg fun hstate => h ?_
  rw [← hstate]
  simp

end Start

/-- What the start-time checks allow, by kind and region state (R79). -/
theorem startState_values : (∀ k, k.isData = true → startState k .kept = none ∧ startState k .off = some .domainOff
      ∧ startState k .lost = some .regionLost ∧ startState k .dropped = some .regionDropped ∧ startState k .arming = some .regionDropped)
    ∧ (startState .retain .off = some .domainOff ∧ ∀ st, st ≠ .off → startState .retain st = none)
    ∧ ∀ st, startState .power st = none := by
  refine ⟨fun k hk => ?_, ⟨rfl, fun st hst => ?_⟩, fun st => rfl⟩
  · cases k with
    | load | fetch | copy | fill | scrub => exact ⟨rfl, rfl, rfl, rfl, rfl⟩
    | retain | power | mark => exact absurd hk (by decide)
  · cases st with
    | off => exact absurd rfl hst
    | lost | dropped | arming | kept => rfl

/-- Settles O35: an order that passes its start test in RUN is RUNNING and handed on by its kind. -/
theorem startTestStartsTheOrder : Obligations.StartTestStartsTheOrder := by
  obtain ⟨hdata, hretain, hpower⟩ := startState_values
  refine ⟨hdata, hretain, hpower, fun s l e o f k he ho hf hk hlife hmark hlive hpasses hallowed hmode => ?_⟩
  have hstart : runStartTest l s = startOrder l o k f s := by
    rw [runStartTest_tests he ho hf hk hlife hmark hlive, testOrder_starts hpasses (startCheck_none hallowed) hmode]
  have hbegun := beginLane_eq he ho
  have hslot := beginLane_slot he ho
  have hregions (r : RegionId) : (beginLane l s).regions[r] = s.regions[r] := by rw [hbegun]
  have hhanded (g : RegionId → Region → Region) (b : BankId) :
      HandedK s b (retainedCount (remap g (beginLane l s)) b) (remap g (beginLane l s)).refresh.banks[b] :=
    (remap_handedK g (beginLane l s) b).congr (by rw [hbegun]) (by rw [hbegun]) (by rw [hbegun])
  have hentry := (startOrder_reportsOnly l o k f s).fixed (beginLane_laneStep he ho).entry_same rfl
  refine ⟨_, rfl, rfl, by rw [hstart]; exact hentry, by simp [SamePort], by simp, fun hk => ?_, fun hk hkeep => ?_, fun hk hkeep hnone => ?_,
    fun hk hkeep hsome => ?_, fun hk hdone => ?_, fun hk hopen => ?_⟩
  · rw [hstart, startOrder_data hk]
    refine ⟨_, rfl, ?_, hslot, ?_⟩
    · rw [hbegun]
      rfl
    · rw [hbegun]
      rfl
  · subst hk
    obtain ⟨-, -, -, hpool, htable, -⟩ := remap_frame (dropped f) (beginLane l s)
    rw [hstart, startOrder_drop hkeep]
    refine ⟨reports_of_begun he ho hpool htable, fun r => ?_, fun ⟨r, hr, hlost⟩ => ?_, fun b => ?_⟩
    · simp only [toReporting_frame]
      rw [remap_regions, dropped_eq, hregions]
    · refine HeaderAsked.congr (headerAsked_remap (r := r) (g := dropped f) (s := beginLane l s) (by rw [hregions, hlost]) ?_) (by simp) (by simp)
      rw [dropped_eq, hregions, if_pos ⟨hr, .inr hlost⟩]
      simp
    · rw [retainedCount_congr (t := toReporting l _ _) (s := remap (dropped f) (beginLane l s)) (by simp)]
      simp only [toReporting_frame]
      exact hhanded (dropped f) b
  · subst hk
    rw [hstart, startOrder_keep hkeep, startKeep_reports fun r hr => by rw [hregions]; exact hnone r hr]
    refine ⟨reports_of_begun he ho rfl rfl, ?_⟩
    obtain ⟨hbanks, hrefresh, hregion, hdomains, harray⟩ := beginLane_side l s
    exact ⟨by simp [hbanks], by simp [hrefresh], by simp [hregion], by simp [hdomains], by simp [harray]⟩
  · subst hk
    have hlist : armingListOf (beginLane l s) f = f.regions.filter (fun r => s.regions[r].state == .dropped || s.regions[r].state == .lost) := by
      rw [armingListOf, hbegun]
      rfl
    rw [hstart, startOrder_keep hkeep, startKeep_arms (by simpa only [hregions] using hsome), hlist]
    generalize hall : f.regions.filter (fun r => s.regions[r].state == .dropped || s.regions[r].state == .lost) = list
    obtain ⟨-, -, -, hpool, -, -⟩ := remap_frame (armed { lane := l, seq := o.seq } list) (beginLane l s)
    refine ⟨_, list, rfl, rfl, ?_, ?_, fun r => ?_, fun b => ?_, fun ⟨r, hr, hlost⟩ => ?_⟩
    · exact (slotOrder_congr (by simp [hpool]) e.slot).trans hslot
    · rw [setGenerator_generators, getElem_set_same, armingGenerator, Config.sweepStrokes]
    · simp only [setGenerator_frame]
      rw [remap_regions, armed_eq, hregions]
    · rw [retainedCount_congr (t := setGenerator l _ _) (s := remap (armed { lane := l, seq := o.seq } list) (beginLane l s)) (by simp)]
      simp only [setGenerator_frame]
      exact hhanded _ b
    · refine HeaderAsked.congr (headerAsked_remap (r := r) (g := armed { lane := l, seq := o.seq } list) (s := beginLane l s)
        (by rw [hregions, hlost]) ?_) (by simp) (by simp)
      rw [armed_eq, if_pos hr]
      simp
  · subst hk
    rw [hstart, startOrder_power_done f hdone]
    refine ⟨reports_of_begun he ho rfl rfl, ?_⟩
    obtain ⟨hbanks, hrefresh, hregion, hdomains, harray⟩ := beginLane_side l s
    exact ⟨by simp [hbanks], by simp [hrefresh], by simp [hregion], by simp [hdomains], by simp [harray]⟩
  · subst hk
    rw [hstart, startOrder_power_asks f hopen]
    refine ⟨_, rfl, hslot, ?_⟩
    rw [askPower, hbegun]

end Sys2Proof.Safety
end

section
/-! PROOFS. The halt on a failed REPORT access (R88, R151, R158, R193): every RUNNING order stops with no cause. -/

namespace Sys2Proof.Safety

open Sys2Proof.Machine

/-! ## What the stop of one order leaves -/

section Stop

variable {s : State} {l : Lane} {e : TableEntry} {o : PoolOrder}

theorem stopLane_table (he : laneEntry s l = some e) (ho : slotOrder s e.slot = some o) (c : Option StopCause) :
    (stopLane l c s).table = s.table := by
  have hself : s.table.set l (some e) = s.table := by
    rw [← show s.table[l] = some e from he]
    exact Vector.set_getElem_self _
  simp only [stopLane, stopIssuing, setGenerator_frame, updateLane, he, ho, id_eq]
  exact hself

theorem stopOrder_table (he : laneEntry s l = some e) (ho : slotOrder s e.slot = some o) (hlife : o.life = .running) (c : Option StopCause) :
    (stopOrder l c s).table = s.table := by
  rw [stopOrder_running ((laneOrder_of_entry he).trans ho) hlife, ← stopLane_table he ho c]
  simp

theorem stopOrder_channel (l : Lane) (c : Option StopCause) (s : State) : (stopOrder l c s).channel = s.channel := by
  by_cases hrunning : ∃ o, laneOrder s l = some o ∧ o.life = .running
  · obtain ⟨o, ho, hlife⟩ := hrunning
    simp [stopOrder_running ho hlife, stopLane]
  · rw [stopOrder_of_not_running fun o ho hlife => hrunning ⟨o, ho, hlife⟩]

theorem stopOrder_generator_other (l : Lane) (c : Option StopCause) (s : State) {m : Lane} (hm : m ≠ l) :
    (stopOrder l c s).strokes.generators[m] = s.strokes.generators[m] := by
  by_cases hrunning : ∃ o, laneOrder s l = some o ∧ o.life = .running
  · obtain ⟨o, ho, hlife⟩ := hrunning
    rw [stopOrder_running ho hlife]
    simp only [dropArming_frame]
    rw [stopLane, stopIssuing_other hm]
    simp
  · rw [stopOrder_of_not_running fun o ho hlife => hrunning ⟨o, ho, hlife⟩]

/-- The k of each bank is handed over; a bank that loses no region keeps its account, k and timer (R151). -/
theorem dropArming_hands {n : OrderName} {b : BankId} (hk : s.refresh.banks[b].k = retainedCount s b) :
    (dropArming n s).refresh.banks[b].k = retainedCount (dropArming n s) b
      ∧ ((∀ r : RegionId, regionBank r = b → armedBy s n r = false) → (dropArming n s).refresh.banks[b] = s.refresh.banks[b]) := by
  obtain h | ⟨h, -⟩ := dropArming_cases n s
  · obtain ⟨hbanks, hrefresh⟩ := disarmedOf_frame n s
    rw [h]
    have hhanded : HandedK s b (retainedCount (handAllK (disarmedOf n s)) b) (handAllK (disarmedOf n s)).refresh.banks[b] :=
      (handAllK_handedK (disarmedOf n s) b).congr (by rw [hrefresh]) (by rw [hrefresh]) (by rw [hbanks])
    refine ⟨hhanded.k_eq, fun hnone => ?_⟩
    obtain ⟨hsame, -⟩ := hhanded
    refine hsame (Eq.trans (retainedCount_eq_of_retained fun g => ?_) hk.symm)
    have hregion : (handAllK (disarmedOf n s)).regions[regionOf b g] = s.regions[regionOf b g] := by
      simp only [handAllK_frame]
      rw [disarmedOf_regions, if_neg (by simp [hnone _ (regionBank_regionOf b g)])]
    rw [regionState, hregion]
    rfl
  · rw [h]
    exact ⟨hk, fun _ => rfl⟩

theorem stopOrder_hands (ho : laneOrder s l = some o) (hlife : o.life = .running) (c : Option StopCause) {b : BankId}
    (hk : s.refresh.banks[b].k = retainedCount s b) :
    (stopOrder l c s).refresh.banks[b].k = retainedCount (stopOrder l c s) b
      ∧ ((∀ r : RegionId, regionBank r = b → armedBy s { lane := l, seq := o.seq } r = false) →
          (stopOrder l c s).refresh.banks[b] = s.refresh.banks[b]) := by
  have hrefresh : (stopLane l c s).refresh = s.refresh := by simp [stopLane]
  have hregions : (stopLane l c s).regions = s.regions := by simp [stopLane]
  have harmed (n : OrderName) (r : RegionId) : armedBy (stopLane l c s) n r = armedBy s n r := by
    simp only [armedBy, regionState, hregions]
  rw [stopOrder_running ho hlife]
  obtain ⟨hcount, hsame⟩ := dropArming_hands (s := stopLane l c s) (n := { lane := l, seq := o.seq }) (b := b)
    (by rw [hrefresh, retainedCount_congr hregions, hk])
  exact ⟨hcount, fun hnone => (hsame fun r hr => (harmed _ r).trans (hnone r hr)).trans (by rw [hrefresh])⟩

end Stop

/-! ## The lanes in turn -/

/-- Whether a RUNNING order of one of these lanes is arming the region. -/
def armedByAny (s : State) (done : List Lane) (r : RegionId) : Bool :=
  done.any fun l => (laneOrder s l).any fun o => o.life == .running && armedBy s { lane := l, seq := o.seq } r

/-- From `s` to `u` the RUNNING orders of the lanes in `done` have stopped with no cause. -/
structure Halted (done : List Lane) (s u : State) : Prop where
  table : u.table = s.table
  orders : ∀ l o, laneOrder s l = some o →
    laneOrder u l = some (if l ∈ done ∧ o.life = .running then { o with life := .stopping, stopCause := none } else o)
  generators : ∀ l g, l ∈ done → u.strokes.generators[l] = some g → (laneOrder s l).any (fun o => o.life == .running) = true → g.issuing = false
  requests : ∀ q, q ∈ u.domains.requests ↔ q ∈ s.domains.requests ∧
    ∀ l o, l ∈ done → laneOrder s l = some o → o.life = .running → q.order ≠ { lane := l, seq := o.seq }
  regions : ∀ r : RegionId, u.regions[r] = if armedByAny s done r then { state := .dropped, owner := none, sweep := 0 } else s.regions[r]
  counts : (∀ b : BankId, s.refresh.banks[b].k = retainedCount s b) → ∀ b : BankId, u.refresh.banks[b].k = retainedCount u b
    ∧ ((∀ r : RegionId, regionBank r = b → s.regions[r].state ≠ .arming) → u.refresh.banks[b] = s.refresh.banks[b])
  channel : u.channel = s.channel
  buffers : u.strokes.buffers = s.strokes.buffers
  serving : u.domains.serving = s.domains.serving
  standing : standing u = standing s

theorem Halted.refl (s : State) : Halted [] s s where
  table := rfl
  orders l o ho := by simpa using ho
  generators l g hl := absurd hl (by simp)
  requests q := by simp
  regions r := by simp [armedByAny]
  counts hk b := ⟨hk b, fun _ => rfl⟩
  channel := rfl
  buffers := rfl
  serving := rfl
  standing := rfl

section Turn

variable {done : List Lane} {s t : State} {l : Lane}

/-- A lane with no RUNNING order has nothing to stop. -/
theorem Halted.of_stays (h : Halted done s t) (hnone : ∀ o, laneOrder s l = some o → o.life ≠ .running) : Halted (done ++ [l]) s t where
  table := h.table
  orders m o ho := by
    rw [h.orders m o ho]
    by_cases hm : m = l
    · subst hm
      simp [hnone o ho]
    · simp [hm]
  generators m g hm hg hrunning := by
    obtain ⟨o, ho, hlife⟩ := (Option.any_eq_true _ _).mp hrunning
    obtain hm | hm := List.mem_append.mp hm
    · exact h.generators m g hm hg hrunning
    · rw [List.mem_singleton.mp hm] at ho
      exact absurd (beq_iff_eq.mp hlife) (hnone o ho)
  requests q := by
    rw [h.requests q]
    refine and_congr_right fun _ => ⟨fun hq m o hm ho hlife => ?_, fun hq m o hm => hq m o (List.mem_append_left _ hm)⟩
    obtain hm | hm := List.mem_append.mp hm
    · exact hq m o hm ho hlife
    · rw [List.mem_singleton.mp hm] at ho
      exact absurd hlife (hnone o ho)
  regions r := by
    rw [h.regions r]
    have hlast : (laneOrder s l).any (fun o => o.life == .running && armedBy s { lane := l, seq := o.seq } r) = false := by
      rw [Option.any_eq_false]
      intro o ho
      simp [hnone o ho]
    simp only [armedByAny, List.any_append, List.any_cons, List.any_nil, hlast, Bool.or_false]
    rfl
  counts := h.counts
  channel := h.channel
  buffers := h.buffers
  serving := h.serving
  standing := h.standing

theorem haltLane_stays (h : ∀ o, laneOrder t l = some o → o.life ≠ .running) : haltLane l t = t := by
  unfold haltLane
  split
  · rfl
  · rename_i o ho
    exact if_neg (by simp [h o ho])

theorem haltLane_stops {e : TableEntry} {o : PoolOrder} (he : laneEntry t l = some e) (ho : slotOrder t e.slot = some o)
    (hlife : o.life = .running) : haltLane l t = stopOrder l none (withdrawRequest { lane := l, seq := o.seq } t) := by
  rw [haltLane, (laneOrder_of_entry he).trans ho]
  simp only [hlife, beq_self_eq_true, if_true]
  exact toStopping_stays (s := withdrawRequest { lane := l, seq := o.seq } t) he ho hlife (.inl rfl)

theorem Halted.entry (h : Halted done s t) (m : Lane) : laneEntry t m = laneEntry s m := laneEntry_congr h.table m

theorem Halted.of_stops (h : Halted done s t) (hs : OrdersPlaced s) (hl : l ∉ done) {o : PoolOrder} (ho : laneOrder s l = some o)
    (hlife : o.life = .running) : Halted (done ++ [l]) s (haltLane l t) := by
  obtain ⟨e, he, -⟩ := laneOrder_eq_some ho
  have hte : laneEntry t l = some e := (h.entry l).trans he
  have hto : slotOrder t e.slot = some o := by
    rw [← laneOrder_of_entry hte, h.orders l o ho, if_neg fun hmem => hl hmem.1]
  rw [haltLane_stops hte hto hlife]
  generalize hn : ({ lane := l, seq := o.seq } : OrderName) = n
  have hstep := stopOrder_laneStep (s := withdrawRequest n t) hte hto hlife none
  have horder : laneOrder (withdrawRequest n t) l = some o := (laneOrder_of_entry hte).trans hto
  have harmed (r : RegionId) : armedBy (withdrawRequest n t) n r = if armedByAny s done r then false else armedBy s n r := by
    have hregions : (withdrawRequest n t).regions[r] = t.regions[r] := rfl
    rw [armedBy, regionState, hregions, h.regions r]
    split <;> rfl
  have hany (r : RegionId) : armedByAny s (done ++ [l]) r = (armedByAny s done r || armedBy s n r) := by
    simp [armedByAny, ho, hlife, hn]
  exact {
    table := (stopOrder_table (s := withdrawRequest n t) hte hto hlife none).trans h.table
    orders := fun m x hx => by
      by_cases hm : m = l
      · subst hm
        cases ho.symm.trans hx
        rw [hstep.order_same]
        simp [hlife]
      · obtain ⟨d, hd, hx'⟩ := laneOrder_eq_some hx
        have hslot : slotOrder t d.slot = laneOrder t m := (laneOrder_of_entry ((h.entry m).trans hd)).symm
        rw [laneOrder_of_entry ((hstep.entry_other hm).trans ((h.entry m).trans hd)), hstep.slot_unchanged (hs.slot_ne hd he hm)]
        refine hslot.trans ((h.orders m x hx).trans ?_)
        simp [hm]
    generators := fun m g hm hg hrunning => by
      by_cases hml : m = l
      · subst hml
        exact stopOrder_issuing horder hlife none hg
      · rw [stopOrder_generator_other _ _ _ hml] at hg
        exact h.generators m g ((List.mem_append.mp hm).resolve_right fun h' => hml (List.mem_singleton.mp h')) hg hrunning
    requests := fun q => by
      have hrequests : (stopOrder l none (withdrawRequest n t)).domains.requests = t.domains.requests.filter fun q => !(q.order == n) := by
        simp only [stopOrder_frame]
        rfl
      rw [hrequests, List.mem_filter, h.requests q, and_assoc]
      refine and_congr_right fun _ => ⟨fun ⟨hq, hqn⟩ m x hm hx hrunning => ?_, fun hq => ⟨fun m x hm => hq m x (List.mem_append_left _ hm), ?_⟩⟩
      · obtain hm | hm := List.mem_append.mp hm
        · exact hq m x hm hx hrunning
        · cases List.mem_singleton.mp hm
          cases ho.symm.trans hx
          rw [hn]
          simpa using hqn
      · have := hq l o (by simp) ho hlife
        rw [hn] at this
        simpa using this
    regions := fun r => by
      rw [stopOrder_regions horder hlife, hn, harmed, hany]
      have hregions : (withdrawRequest n t).regions[r] = t.regions[r] := rfl
      rw [hregions, h.regions r]
      cases armedByAny s done r <;> rfl
    counts := fun hk b => by
      obtain ⟨hcount, hsame⟩ := h.counts hk b
      obtain ⟨hcount', hsame'⟩ := stopOrder_hands (s := withdrawRequest n t) horder hlife none (b := b) hcount
      refine ⟨hcount', fun hnone => (hsame' fun r hr => ?_).trans (hsame hnone)⟩
      rw [hn, harmed]
      split
      · rfl
      · exact Bool.eq_false_iff.mpr fun hr' => hnone r hr ((armedBy_iff s n r).mp hr').1
    channel := (stopOrder_channel _ _ _).trans h.channel
    buffers := (stopOrder_buffers _ _ _).trans h.buffers
    serving := by
      simp only [stopOrder_frame]
      exact h.serving
    standing := (standing_stopOrder _ _ _).trans h.standing }

theorem Halted.step (h : Halted done s t) (hs : OrdersPlaced s) (hl : l ∉ done) : Halted (done ++ [l]) s (haltLane l t) := by
  by_cases hrunning : ∃ o, laneOrder s l = some o ∧ o.life = .running
  · obtain ⟨o, ho, hlife⟩ := hrunning
    exact h.of_stops hs hl ho hlife
  · have hnone : ∀ o, laneOrder s l = some o → o.life ≠ .running := fun o ho hlife => hrunning ⟨o, ho, hlife⟩
    rw [haltLane_stays fun x hx => ?_]
    · exact h.of_stays hnone
    · obtain ⟨e, he, -⟩ := laneOrder_eq_some hx
      obtain ⟨o, -, ho⟩ := hs.order_of_entry ((h.entry l).symm.trans he)
      have hkept := h.orders l o ho
      rw [if_neg fun hmem => hl hmem.1] at hkept
      cases hkept.symm.trans hx
      exact hnone _ ho

theorem Halted.foldl (hs : OrdersPlaced s) (lanes : List Lane) (h : Halted done s t) (hnodup : (done ++ lanes).Nodup) :
    Halted (done ++ lanes) s (lanes.foldl (fun t l => haltLane l t) t) := by
  induction lanes generalizing done t with
  | nil => simpa using h
  | cons l lanes ih =>
    have hl : l ∉ done := fun hmem => (List.nodup_append.mp hnodup).2.2 l hmem l List.mem_cons_self rfl
    have hturn := ih (h.step hs hl) (by simpa using hnodup)
    simpa using hturn

end Turn

theorem Halted.all {s : State} (hs : OrdersPlaced s) : Halted allLanes s (allLanes.foldl (fun t l => haltLane l t) s) :=
  (Halted.refl s).foldl hs allLanes (by decide)

/-- The halt before the orders stop: the engine HALTED and the intake OFF. -/
def haltedEngine (s : State) : State := stopIntake (enterHalted .reportBus s)

theorem haltOnReport_eq (s : State) : haltOnReport s = allLanes.foldl (fun t l => haltLane l t) (haltedEngine s) := rfl

theorem haltedEngine_eq {s : State} (hfree : s.channel.outstanding = none) : haltedEngine s = intakeOff { s with
    engine := { state := .halted, haltReason := .reportBus }
    port := { s.port with faultPending := true }
    channel := { s.channel with queue := s.channel.queue.filter fun r => !r.isIntake } } := by
  rw [haltedEngine, stopIntake, if_neg]
  · rfl
  · simp [intakeOutstanding, enterHalted, setFault, hfree]

theorem failResponse_report {s : State} {tag : Nat} {r : Request} (h : Awaits s tag r) (hr : r.isReport = true) :
    failResponse tag Request.isReport s = settle (freed s) (haltOnReport (freed s)) := by
  obtain ⟨a, -, ha, heq⟩ := onResponse_awaited (fun a => accessFails a.request) h (sort := Request.isReport) hr
  rw [failResponse, heq, ha]
  cases r with
  | result _ | estate _ | headerUpdate | release => rfl
  | startRead | intakeRead _ | hostRead _ | hostWrite _ => exact absurd hr (by simp [Request.isReport])

theorem haltLanes_frame (lanes : List Lane) (v : State) : (lanes.foldl (fun t l => haltLane l t) v).port = v.port
    ∧ (lanes.foldl (fun t l => haltLane l t) v).engine = v.engine ∧ (lanes.foldl (fun t l => haltLane l t) v).intake = v.intake := by
  induction lanes generalizing v with
  | nil => exact ⟨rfl, rfl, rfl⟩
  | cons l lanes ih =>
    obtain ⟨hport, hengine, hintake⟩ := ih (haltLane l v)
    exact ⟨hport.trans (by simp), hengine.trans (by simp), hintake.trans (by simp)⟩

theorem armedByAny_iff (s : State) (r : RegionId) : armedByAny s allLanes r = true ↔
    ∃ l o, laneOrder s l = some o ∧ o.life = .running ∧ s.regions[r].state = .arming
      ∧ s.regions[r].owner = some { lane := l, seq := o.seq } := by
  simp only [armedByAny, List.any_eq_true, Option.any_eq_true, Bool.and_eq_true, beq_iff_eq, armedBy_iff]
  exact ⟨fun ⟨l, _, o, h⟩ => ⟨l, o, h⟩, fun ⟨l, o, h⟩ => ⟨l, mem_allLanes l, o, h⟩⟩

/-- Settles O20: a failed REPORT access halts the engine, and every RUNNING order stops with no cause. -/
theorem reportFailureHalts : Obligations.ReportFailureHalts := by
  intro s tag r hawaits hr hs
  have hplaced : OrdersPlaced (haltedEngine (freed s)) :=
    ((KeepsBase.after_freed s).trans ((KeepsBase.after_enterHalted .reportBus _).trans (.after_stopIntake _))).placed hs
  have hall := Halted.all hplaced
  obtain ⟨hport, hengine, hintake⟩ := haltLanes_frame allLanes (haltedEngine (freed s))
  have heq := haltedEngine_eq (s := freed s) rfl
  rw [← haltOnReport_eq] at hall hport hengine hintake
  rw [heq] at hall hport hengine hintake
  refine ⟨haltOnReport (freed s), congrArg Host.Outcome.next (failResponse_report hawaits hr), ?_⟩
  have hstanding := hall.standing
  simp only [standing, Prod.mk.injEq] at hstanding
  obtain ⟨hqueues, hoist, -⟩ := hstanding
  refine ⟨hengine, hport, ?_, ?_, by rw [hintake]; rfl, by rw [hintake]; rfl, fun l o ho => ?_, fun l g hg => hall.generators l g (mem_allLanes l) hg,
    fun q => ?_, hall.serving, by simp [freed], hall.table, by simp [freed], hall.buffers, by simp [freed], by simp [freed], hoist, by simp [freed],
    hqueues, by simp [freed], by simp [freed], by rw [hall.channel]; rfl, fun r hr => ?_, fun r hr => ?_, hall.counts⟩
  · rw [Off, hintake]
    exact ⟨rfl, rfl, rfl, rfl⟩
  · rw [SameWalk, hintake]
    exact ⟨rfl, rfl, rfl, rfl, rfl⟩
  · rw [hall.orders l o ho]
    simp [mem_allLanes]
  · refine (hall.requests q).trans (and_congr_right fun _ => ?_)
    exact ⟨fun h l o => h l o (mem_allLanes l), fun h l o _ => h l o⟩
  · exact (hall.regions r).trans (if_pos ((armedByAny_iff _ r).mpr hr))
  · refine (hall.regions r).trans (if_neg fun h => ?_)
    obtain ⟨l, o, ho, hlife, hstate, howner⟩ := (armedByAny_iff _ r).mp h
    exact hr l o ho hlife hstate howner

end Sys2Proof.Safety
end

section
/-! PROOFS. Where strokes and orders lie: region sets, footprints, places and the region check (R74, R75, R91, R94, R96, R105, R156). -/

namespace Sys2Proof.Safety

open Sys2Proof.Machine

/-! ## Regions in ascending order -/

theorem mem_allRegions (r : RegionId) : r ∈ allRegions := List.mem_finRange r

theorem ascending_allRegions : allRegions.Pairwise fun p q => p.val < q.val := by
  rw [allRegions, List.pairwise_iff_getElem]
  intro i j hi hj hij
  rw [List.getElem_finRange, List.getElem_finRange]
  exact hij

theorem ascending_filter (p : RegionId → Bool) : (allRegions.filter p).Pairwise fun p q => p.val < q.val := ascending_allRegions.filter p

/-- The first element with a property, of a list that ascends in a key, is the least. -/
theorem find?_ascending_iff {α : Type} {l : List α} {key : α → Nat} (hl : l.Pairwise fun p q => key p < key q) (p : α → Bool) (x : α) :
    l.find? p = some x ↔ x ∈ l ∧ p x = true ∧ ∀ y ∈ l, p y = true → key x ≤ key y := by
  induction l with
  | nil => simp
  | cons a l ih =>
    obtain ⟨ha, hl⟩ := List.pairwise_cons.mp hl
    cases hp : p a with
    | true =>
      rw [List.find?_cons_of_pos hp]
      constructor
      · intro h
        cases h
        refine ⟨List.mem_cons_self, hp, fun y hy _ => ?_⟩
        obtain rfl | hy := List.mem_cons.mp hy
        · exact Nat.le_refl _
        · exact Nat.le_of_lt (ha y hy)
      · rintro ⟨hx, -, hleast⟩
        obtain rfl | hx := List.mem_cons.mp hx
        · rfl
        · exact absurd (hleast a List.mem_cons_self hp) (Nat.not_le.mpr (ha x hx))
    | false =>
      have hne : ∀ y, p y = true → y ≠ a := fun y hy h => absurd ((h ▸ hy).symm.trans hp) (by decide)
      rw [List.find?_cons_of_neg (by simp [hp]), ih hl]
      constructor
      · rintro ⟨hx, hpx, hleast⟩
        refine ⟨List.mem_cons_of_mem a hx, hpx, fun y hy hpy => hleast y ?_ hpy⟩
        exact (List.mem_cons.mp hy).resolve_left (hne y hpy)
      · rintro ⟨hx, hpx, hleast⟩
        exact ⟨(List.mem_cons.mp hx).resolve_left (hne x hpx), hpx, fun y hy => hleast y (List.mem_cons_of_mem a hy)⟩

/-! ## The regions of an interval (R75) -/

/-- The region of a byte, by its bank and segment. -/
theorem addrRegion_eq_iff {x : Nat} (hx : x < 268435456) (r : RegionId) :
    addrRegion x = r ↔ x / 2048 % 8 = r.val / 8 ∧ x / 33554432 = r.val % 8 := by
  have hregion : (addrRegion x).val = x / 2048 % 8 * 8 + x / 33554432 % 8 := rfl
  have hr := r.isLt
  rw [Fin.ext_iff, hregion]
  omega

/-- The first block of a bank from `low` on is the least one with its number. -/
theorem bankBlock_iff (low high : Nat) {bank : Nat} (hbank : bank < 8) :
    low + (bank + 8 - low % 8) % 8 ≤ high ↔ ∃ q, low ≤ q ∧ q ≤ high ∧ q % 8 = bank := by
  constructor
  · intro h
    exact ⟨low + (bank + 8 - low % 8) % 8, by omega, h, by omega⟩
  · rintro ⟨q, hlow, hhigh, hq⟩
    omega

/-- An interval meets a block of 2,048 bytes. -/
theorem meetsBlock_iff {a len : Nat} (hlen : 0 < len) (q : Nat) :
    (a / 2048 ≤ q ∧ q ≤ (a + len - 1) / 2048) ↔ ∃ x, a ≤ x ∧ x < a + len ∧ x / 2048 = q := by
  constructor
  · rintro ⟨hlow, hhigh⟩
    exact ⟨max a (q * 2048), by omega, by omega, by omega⟩
  · rintro ⟨x, hlow, hhigh, hx⟩
    omega

theorem touchesRegion_iff (a len : Nat) (r : RegionId) (h : a + len ≤ 268435456) :
    touchesRegion a len r = true ↔ ∃ x, a ≤ x ∧ x < a + len ∧ addrRegion x = r := by
  have hr := r.isLt
  have hsegment : (regionSegment r).val = r.val % 8 := rfl
  have hbank : (regionBank r).val = r.val / 8 := rfl
  simp only [touchesRegion, Bool.and_eq_true, decide_eq_true_eq, hsegment, hbank]
  rw [bankBlock_iff _ _ (by omega)]
  constructor
  · rintro ⟨hlen, q, hlow, hhigh, hq⟩
    obtain ⟨x, hax, hxa, hx⟩ := (meetsBlock_iff (a := a) hlen q).mp (by omega)
    exact ⟨x, hax, hxa, (addrRegion_eq_iff (x := x) (by omega) r).mpr (by omega)⟩
  · rintro ⟨x, hax, hxa, hx⟩
    obtain ⟨hxbank, hxsegment⟩ := (addrRegion_eq_iff (x := x) (by omega) r).mp hx
    exact ⟨by omega, x / 2048, by omega, by omega, hxbank⟩

/-! ## Footprints (R74) -/

theorem intervalRegions_ascending (ivs : List ArrayInterval) : (intervalRegions ivs).Pairwise fun p q => p.val < q.val := ascending_filter _

theorem retainRegions_ascending (e : EntryWords) : (retainRegions e).Pairwise fun p q => p.val < q.val := ascending_filter _

theorem domainRegions_ascending (d : DomainId) : (domainRegions d).Pairwise fun p q => p.val < q.val := ascending_filter _

theorem footprintOf_regions_ascending (e : EntryWords) (k : OrderKind) : (footprintOf e k).regions.Pairwise fun p q => p.val < q.val := by
  cases k with
  | load | fetch | copy | fill | scrub => exact intervalRegions_ascending _
  | retain => exact retainRegions_ascending e
  | power => exact domainRegions_ascending e.domain
  | mark => exact List.Pairwise.nil

theorem mem_footprint_data (e : EntryWords) {k : OrderKind} (hk : k.isData = true) (r : RegionId) :
    r ∈ (footprintOf e k).regions ↔ ∃ iv ∈ (footprintOf e k).intervals, touchesRegion iv.base iv.length r = true := by
  have hmem (ivs : List ArrayInterval) : r ∈ intervalRegions ivs ↔ ∃ iv ∈ ivs, touchesRegion iv.base iv.length r = true := by
    rw [intervalRegions, List.mem_filter, and_iff_right (mem_allRegions r), List.any_eq_true]
  cases k with
  | load | fetch | copy | fill | scrub => exact hmem _
  | retain | power | mark => exact absurd hk (by decide)

theorem mem_footprint_retain (e : EntryWords) (r : RegionId) : r ∈ (footprintOf e .retain).regions ↔
    e.word5.getLsbD (r.val / 8) = true ∧ e.word5.getLsbD (8 + r.val % 8) = true := by
  have hr := r.isLt
  have hsegment : (regionSegment r).val = r.val % 8 := rfl
  have hbank : (regionBank r).val = r.val / 8 := rfl
  rw [show (footprintOf e .retain).regions = retainRegions e from rfl, retainRegions, List.mem_filter, and_iff_right (mem_allRegions r),
    Bool.and_eq_true, hsegment, hbank, EntryWords.bankMask, EntryWords.segmentMask, BitVec.getLsbD_extractLsb', BitVec.getLsbD_extractLsb',
    decide_eq_true (by omega), decide_eq_true (by omega), Nat.zero_add, Bool.true_and, Bool.true_and]

theorem mem_footprint_power (e : EntryWords) (r : RegionId) : r ∈ (footprintOf e .power).regions ↔ r.val / 16 = e.word5.toNat % 4 := by
  have hdomain : (regionDomain r).val = r.val / 16 := Nat.div_div_eq_div_mul r.val 8 2
  have hfield : e.domain.val = e.word5.toNat % 4 := by simp [EntryWords.domain]
  rw [show (footprintOf e .power).regions = domainRegions e.domain from rfl, domainRegions, List.mem_filter, and_iff_right (mem_allRegions r),
    beq_iff_eq, Fin.ext_iff, hdomain, hfield]

/-- Settles O33: the footprint of each kind, and the regions of an interval. -/
theorem footprintsAndRegionSets : Obligations.FootprintsAndRegionSets :=
  ⟨touchesRegion_iff, footprintOf_regions_ascending, fun e => ⟨rfl, rfl, rfl, rfl, rfl, rfl, rfl, rfl, rfl,
    fun _ r hk => mem_footprint_data e hk r, mem_footprint_retain e, mem_footprint_power e⟩⟩

/-! ## Places (R91, R156) -/

theorem sweepPlace_lt (r : RegionId) {j : Nat} (hj : j < 65536) : sweepPlace r j < 268435456 := by
  have hr := r.isLt
  simp only [sweepPlace, regionSegment, regionBank]
  omega

theorem addrRegion_sweepPlace (r : RegionId) {j : Nat} (hj : j < 65536) : addrRegion (sweepPlace r j) = r := by
  have hr := r.isLt
  rw [addrRegion_eq_iff (sweepPlace_lt r hj)]
  simp only [sweepPlace, regionSegment, regionBank]
  omega

theorem strokePlace_arming (e : EntryWords) {list : List RegionId} {i : Nat} {r : RegionId} (h : list[i / 65536]? = some r) :
    strokePlace e .arming list i = sweepPlace r (i % 65536) := by
  have hregion : armingRegion list i = some r := h
  simp only [strokePlace, hregion, Config.sweepStrokes]

/-- The region check of a COPY finds the first of its two regions that is not KEPT (R94). -/
theorem failedRegion_copy_iff (s : State) (n : OrderName) (place dest : Nat) (x : RegionId) : failedRegion s n .copy place dest = some x ↔
    (x = addrRegion place ∨ x = addrRegion dest) ∧ s.regions[x].state ≠ .kept
      ∧ ∀ y, y = addrRegion place ∨ y = addrRegion dest → s.regions[y].state ≠ .kept → x.val ≤ y.val := by
  have hmem (y : RegionId) : y ∈ allRegions.filter (fun r => r == addrRegion place || r == addrRegion dest) ↔
      y = addrRegion place ∨ y = addrRegion dest := by
    rw [List.mem_filter, and_iff_right (mem_allRegions y)]
    simp
  have hstate (y : RegionId) : (regionState s y != .kept) = true ↔ s.regions[y].state ≠ .kept := by simp only [regionState, bne_iff_ne]
  rw [failedRegion, find?_ascending_iff (ascending_filter _)]
  simp only [hmem, hstate]

/-- Settles O39: where strokes lie, what they write, and which region stops an issue. -/
theorem strokePlacesAndChecks : Obligations.StrokePlacesAndChecks := by
  refine ⟨fun e k list i hk => ?_, fun e list i r hr => ?_, fun w j => by simp [fillLine], fun j => by simp [zeroLine], fun s n k place dest hk => ?_,
    fun s n place dest => ?_, failedRegion_copy_iff⟩
  · cases k with
    | arming => exact absurd rfl hk
    | _ => rfl
  · rw [strokePlace_arming e hr]
    exact ⟨rfl, addrRegion_sweepPlace r (Nat.mod_lt i (by decide))⟩
  · have hcheck : failedRegion s n k place dest = if regionState s (addrRegion place) == .kept then none else some (addrRegion place) := by
      obtain rfl | rfl | rfl | rfl := hk <;> rfl
    rw [hcheck]
    simp only [regionState, beq_iff_eq]
  · rw [failedRegion]
    simp only [armedBy_iff]

end Sys2Proof.Safety
end

section
/-! PROOFS. The issue of strokes (R93 to R95, R98): the issue test, one stroke's issue, and the allocator's choice. -/

namespace Sys2Proof.Safety

open Sys2Proof.Machine

section Issue

variable {s : State} {l : Lane} {o : PoolOrder} {g : Generator} {k : StrokeKind}

/-! ## The issue test (R93, R156) -/

theorem laneWork_eq (ho : laneOrder s l = some o) (hg : s.strokes.generators[l] = some g) (hk : o.kind.bind strokeKindOf = some k) :
    laneWork s l = some (o, g, k) := by
  rw [laneWork, ho, hg]
  simp only [hk, Option.map_some]

theorem laneWork_eq_some (h : laneWork s l = some (o, g, k)) :
    laneOrder s l = some o ∧ s.strokes.generators[l] = some g ∧ o.kind.bind strokeKindOf = some k := by
  unfold laneWork at h
  split at h
  · rename_i x y hx hy
    obtain ⟨z, hz, heq⟩ := Option.map_eq_some_iff.mp h
    cases heq
    exact ⟨hx, hy, hz⟩
  · exact absurd h (by simp)

theorem mayIssueStroke_iff (s : State) (l : Lane) (o : PoolOrder) (g : Generator) : mayIssueStroke s l o g = true ↔
    g.issuing = true ∧ g.nextStroke < g.strokeCount ∧ inFlight s l < 4 ∧ s.engine.state ≠ .halted ∧ sweepReady o g = true := by
  simp only [mayIssueStroke, Bool.and_eq_true, decide_eq_true_eq, engineIs, Bool.not_eq_true', beq_eq_false_iff_ne, and_assoc]
  rfl

theorem sweepReady_iff (o : PoolOrder) (g : Generator) :
    sweepReady o g = true ↔ g.armingList = [] ∨ 4194304 * (g.nextStroke / 65536) ≤ o.done := by
  simp only [sweepReady, Bool.or_eq_true, List.isEmpty_iff, decide_eq_true_eq]
  rfl

theorem needsBuffer_iff (k : StrokeKind) : k.needsBuffer = true ↔ k ≠ .fill ∧ k ≠ .arming := by cases k <;> decide

theorem needsBuffer_eq_false_iff (k : StrokeKind) : k.needsBuffer = false ↔ k = .fill ∨ k = .arming := by cases k <;> decide

theorem issuesAlone_eq (h : laneWork s l = some (o, g, k)) : issuesAlone s l = (!k.needsBuffer && mayIssueStroke s l o g) := by
  simp only [issuesAlone, h]

theorem wantsBuffer_eq (h : laneWork s l = some (o, g, k)) : wantsBuffer s l = (k.needsBuffer && mayIssueStroke s l o g) := by
  simp only [wantsBuffer, h]

theorem issuesAlone_true (h : issuesAlone s l = true) :
    ∃ o g k, laneWork s l = some (o, g, k) ∧ k.needsBuffer = false ∧ mayIssueStroke s l o g = true := by
  unfold issuesAlone at h
  split at h
  · rename_i o g k hwork
    obtain ⟨hk, hmay⟩ := Bool.and_eq_true_iff.mp h
    exact ⟨o, g, k, hwork, by simpa using hk, hmay⟩
  · exact absurd h (by decide)

theorem wantsBuffer_true (h : wantsBuffer s l = true) :
    ∃ o g k, laneWork s l = some (o, g, k) ∧ k.needsBuffer = true ∧ mayIssueStroke s l o g = true := by
  unfold wantsBuffer at h
  split at h
  · rename_i o g k hwork
    obtain ⟨hk, hmay⟩ := Bool.and_eq_true_iff.mp h
    exact ⟨o, g, k, hwork, hk, hmay⟩
  · exact absurd h (by decide)

/-- A lane that wants a buffer issues nothing alone. -/
theorem issuesAlone_of_wants (h : wantsBuffer s l = true) : issuesAlone s l = false := by
  obtain ⟨o, g, k, hwork, hk, -⟩ := wantsBuffer_true h
  rw [issuesAlone_eq hwork, hk]
  rfl

/-! ## One stroke's issue (R94, R95) -/

/-- A stroke's record is made, with the buffer it holds, and its generator goes on. -/
def issueRecord (l : Lane) (b : Option BufferId) (r : StrokeRecord) (s : State) : State :=
  updateGenerator l (fun g => { g with nextStroke := g.nextStroke + 1 }) (addStroke r (holdBuffer b r.id s))

/-- The region check of a generator's next stroke. -/
def nextFails (s : State) (l : Lane) (o : PoolOrder) (g : Generator) (k : StrokeKind) (b : Option BufferId) : Option RegionId :=
  failedRegion s { lane := l, seq := o.seq } k (nextRecord l o g k b).place (nextRecord l o g k b).destPlace

theorem issueStroke_issues (h : laneWork s l = some (o, g, k)) (b : Option BufferId) (hpass : nextFails s l o g k b = none) :
    issueStroke l b s = placeFirstStep (nextRecord l o g k b) o.entry.aux (issueRecord l b (nextRecord l o g k b) s) := by
  rw [nextFails] at hpass
  simp only [issueStroke, h, hpass]
  rfl

theorem issueStroke_stops (h : laneWork s l = some (o, g, k)) (b : Option BufferId) {x : RegionId} (hfail : nextFails s l o g k b = some x) :
    issueStroke l b s = toStopping l (some (regionCause (regionState s x))) s := by
  rw [nextFails] at hfail
  simp only [issueStroke, h, hfail]

/-- The allocator's turn has come to a lane. -/
def turnTo (l : Lane) (s : State) : State := { s with strokes := { s.strokes with lastGranted := l } }

theorem grantBuffer_issues (h : laneWork s l = some (o, g, k)) (b : BufferId) (hpass : nextFails s l o g k (some b) = none) :
    grantBuffer l b s =
      placeFirstStep (nextRecord l o g k (some b)) o.entry.aux (issueRecord l (some b) (nextRecord l o g k (some b)) (turnTo l s)) := by
  have hissue : grantBuffer l b s = issueStroke l (some b) (turnTo l s) := by
    rw [nextFails] at hpass
    simp only [grantBuffer, h, hpass]
    rfl
  rw [hissue]
  exact issueStroke_issues (s := turnTo l s) h (some b) hpass

theorem grantBuffer_stops (h : laneWork s l = some (o, g, k)) (b : BufferId) {x : RegionId} (hfail : nextFails s l o g k (some b) = some x) :
    grantBuffer l b s = toStopping l (some (regionCause (regionState s x))) s := by
  rw [← issueStroke_stops h (some b) hfail]
  rw [nextFails] at hfail
  simp only [grantBuffer, h, hfail, Option.isSome_some, if_true]

theorem regionCause_eq (st : RegionState) : regionCause st = if st = .lost then .regionLost else .regionDropped := by cases st <;> rfl

/-- The state once a stroke's record is made: with a buffer, the allocator's turn has passed to the lane. -/
def recorded (l : Lane) (g : Generator) (b : Option BufferId) (r : StrokeRecord) (s : State) : State :=
  { s with strokes :=
    { records := s.strokes.records ++ [r]
      generators := s.strokes.generators.set l (some { g with nextStroke := g.nextStroke + 1 })
      buffers := match b with
        | some f => s.strokes.buffers.set f (some { holder := r.id, data := none })
        | none => s.strokes.buffers
      lastGranted := match b with
        | some _ => l
        | none => s.strokes.lastGranted } }

theorem issueRecord_eq (hg : s.strokes.generators[l] = some g) (r : StrokeRecord) : issueRecord l none r s = recorded l g none r s := by
  have hg : s.strokes.generators[l.val] = some g := hg
  simp [issueRecord, updateGenerator, addStroke, holdBuffer, setGenerator, recorded, hg]

theorem issueRecord_turnTo (hg : s.strokes.generators[l] = some g) (b : BufferId) (r : StrokeRecord) :
    issueRecord l (some b) r (turnTo l s) = recorded l g (some b) r s := by
  have hg : s.strokes.generators[l.val] = some g := hg
  simp [issueRecord, updateGenerator, addStroke, holdBuffer, setGenerator, recorded, turnTo, hg]

/-- A stroke without a buffer whose regions pass the check places its first step. -/
theorem issueStroke_places (h : laneWork s l = some (o, g, k)) (hpass : nextFails s l o g k none = none) : issueStroke l none s =
    placeFirstStep (nextRecord l o g k none) o.entry.aux (recorded l g none (nextRecord l o g k none) s) := by
  obtain ⟨-, hg, -⟩ := laneWork_eq_some h
  rw [issueStroke_issues h none hpass, issueRecord_eq hg]

/-- So does one that is granted a buffer. -/
theorem grantBuffer_places (h : laneWork s l = some (o, g, k)) (b : BufferId) (hpass : nextFails s l o g k (some b) = none) :
    grantBuffer l b s =
      placeFirstStep (nextRecord l o g k (some b)) o.entry.aux (recorded l g (some b) (nextRecord l o g k (some b)) s) := by
  obtain ⟨-, hg, -⟩ := laneWork_eq_some h
  rw [grantBuffer_issues h b hpass, issueRecord_turnTo hg]

/-- What the first step of a kind other than LOAD asks of its bank. -/
def firstRequest (k : StrokeKind) (aux : Word) : BankRequestKind :=
  match k with
  | .load | .fetch | .copy => .read
  | .scrub => .scrub
  | .fill => .write (fillLine aux)
  | .arming => .write zeroLine

theorem placeFirstStep_load {r : StrokeRecord} (h : r.kind = .load) (aux : Word) (s : State) :
    placeFirstStep r aux s = placeRequest (.hostRead r.id) s := by
  rw [placeFirstStep, h]

theorem placeFirstStep_bank {r : StrokeRecord} (h : r.kind ≠ .load) (aux : Word) (s : State) :
    placeFirstStep r aux s = placeBankRequest r r.place (firstRequest r.kind aux) s := by
  unfold placeFirstStep
  cases hk : r.kind with
  | load => exact absurd hk h
  | _ => rfl

theorem placeBankRequest_joins {r : StrokeRecord} {a : Nat} {kind : BankRequestKind} (h : s.banks[addrBank a].state ≠ .unpowered) :
    placeBankRequest r a kind s = joinBank (addrBank a) (bankRequestAt r a kind) s := by
  refine if_neg ?_
  simp only [bankUnpowered, beq_iff_eq]
  exact h

theorem placeBankRequest_fails {r : StrokeRecord} {a : Nat} {kind : BankRequestKind} (h : s.banks[addrBank a].state = .unpowered) :
    placeBankRequest r a kind s = endTest r.id.lane (strokeFails r .regionDropped s) := by
  refine if_pos ?_
  simp only [bankUnpowered, beq_iff_eq]
  exact h

theorem issueOne_alone (h : issuesAlone s l = true) : issueOne l s = issueStroke l none s := if_pos h

theorem issueOne_granted {b : BufferId} (hwants : wantsBuffer s l = true) (hfree : freeBuffer s = some b) (hnext : nextWanter s = some l) :
    issueOne l s = grantBuffer l b s := by
  rw [issueOne, if_neg (by simp [issuesAlone_of_wants hwants]), hfree]
  exact if_pos hnext

end Issue

/-- Settles O38: the issue of one stroke, its region check and its first step. -/
theorem strokeIssueChecksAndPlaces : Obligations.StrokeIssueChecksAndPlaces := by
  refine ⟨fun v b q => rfl, fun v r => rfl, ⟨rfl, rfl⟩, fun s l c e o he ho => ⟨fun hlife => ?_, fun hlife u hu => ?_⟩,
    fun s l o g k buffer ho hg hk hissuing hnext hroom hlive hready hkind r hr issued hissued => ?_⟩
  · refine toStopping_of_not_running (fun x hx => ?_) c
    cases ((laneOrder_of_entry he).trans ho).symm.trans hx
    exact hlife
  · subst hu
    refine ⟨toStopping_held he ho hlife, ?_, fun r => ?_, by simp [SamePort], by simp, by simp, by simp, toStopping_buffers l c s, by simp,
      fun j => toStopping_slot_other he ho c⟩
    · rintro d rfl hlive hnone
      exact toStopping_free he ho hlife d hlive hnone
    · rw [toStopping_regions ((laneOrder_of_entry he).trans ho) hlife]
      simp only [armedBy_iff]
  · have hwork := laneWork_eq ho hg hk
    have hmay : mayIssueStroke s l o g = true := (mayIssueStroke_iff s l o g).mpr ⟨hissuing, hnext, hroom, hlive, hready⟩
    have hr : r = nextRecord l o g k buffer := hr
    have hissue : issueOne l s = issued := by
      rw [hissued]
      obtain ⟨hk, rfl⟩ | ⟨hfill, harming, hfree, hsome, hturn⟩ := hkind
      · exact issueOne_alone (by rw [issuesAlone_eq hwork, (needsBuffer_eq_false_iff k).mpr hk, hmay]; rfl)
      · obtain ⟨b, rfl⟩ := Option.ne_none_iff_exists'.mp hsome
        exact issueOne_granted (by rw [wantsBuffer_eq hwork, (needsBuffer_iff k).mpr ⟨hfill, harming⟩, hmay]; rfl) hfree hturn
    refine ⟨congrArg (fun t => Host.Outcome.next (settle s t)) hissue, fun x hx => ?_, fun hpass => ?_⟩
    · rw [hr] at hx
      have hcause : regionCause (regionState s x) = if s.regions[x].state = .lost then .regionLost else .regionDropped := regionCause_eq _
      rw [hissued, ← hcause]
      cases buffer with
      | none => exact issueStroke_stops hwork none hx
      | some b => exact grantBuffer_stops hwork b hx
    · rw [hr] at hpass
      have hplace : issued = placeFirstStep r o.entry.aux (recorded l g buffer r s) := by
        rw [hissued, hr]
        cases buffer with
        | none => exact issueStroke_places hwork hpass
        | some b => exact grantBuffer_places hwork b hpass
      have hnone : buffer = none → (recorded l g buffer r s).strokes.buffers = s.strokes.buffers
          ∧ (recorded l g buffer r s).strokes.lastGranted = s.strokes.lastGranted := by
        rintro rfl
        exact ⟨rfl, rfl⟩
      have hsome : ∀ b, buffer = some b →
          (recorded l g buffer r s).strokes.buffers = s.strokes.buffers.set b (some { holder := r.id, data := none })
            ∧ (recorded l g buffer r s).strokes.lastGranted = l := by
        rintro b rfl
        exact ⟨rfl, rfl⟩
      have hkindr : r.kind = k := by rw [hr]; rfl
      refine ⟨recorded l g buffer r s, rfl, rfl, rfl, hnone, hsome, fun hload => ?_, fun hload hpower => ?_, fun hload hpower => ?_⟩
      · rw [hplace, placeFirstStep_load (hkindr.trans hload)]
      · rw [hplace, placeFirstStep_bank (by rwa [hkindr]), placeBankRequest_joins (s := recorded l g buffer r s) hpower, hkindr, hr]
        cases k <;> rfl
      · rw [hplace, placeFirstStep_bank (by rwa [hkindr]), placeBankRequest_fails (s := recorded l g buffer r s) hpower, hr]
        rfl

end Sys2Proof.Safety
end

section
/-! PROOFS. The issue that follows a start or a stroke's end ends (R93, R98): what each issue uses up, and what it leaves of the other lanes. -/

namespace Sys2Proof.Safety

open Sys2Proof.Machine

/-! ## Lanes an operation on another lane leaves as they are -/

/-- From `s` to `t` lane `m` keeps its entry, its order, its generator and the number of its strokes in flight. -/
structure LaneSame (m : Lane) (s t : State) : Prop where
  entry : laneEntry t m = laneEntry s m
  order : laneOrder t m = laneOrder s m
  generator : t.strokes.generators[m] = s.strokes.generators[m]
  flight : inFlight t m = inFlight s m

theorem LaneSame.refl (m : Lane) (s : State) : LaneSame m s s := ⟨rfl, rfl, rfl, rfl⟩

theorem LaneSame.trans {m : Lane} {s t u : State} (h : LaneSame m s t) (h' : LaneSame m t u) : LaneSame m s u :=
  ⟨h'.entry.trans h.entry, h'.order.trans h.order, h'.generator.trans h.generator, h'.flight.trans h.flight⟩

theorem LaneSame.of_tables {m : Lane} {s t : State} (hpool : t.pool = s.pool) (htable : t.table = s.table)
    (hgen : t.strokes.generators[m] = s.strokes.generators[m]) (hflight : inFlight t m = inFlight s m) : LaneSame m s t :=
  ⟨laneEntry_congr htable m, laneOrder_congr (by rw [hpool]) htable m, hgen, hflight⟩

section Other

variable {s : State} {l m : Lane}

theorem LaneSame.of_laneStep {t : State} {e e' : TableEntry} {o o' : PoolOrder} (h : LaneStep s t l e e' o o') (hs : OrdersPlaced s) (hm : m ≠ l)
    (hgen : t.strokes.generators[m] = s.strokes.generators[m]) (hflight : inFlight t m = inFlight s m) : LaneSame m s t :=
  ⟨h.entry_other hm, h.order_other hs hm, hgen, hflight⟩

theorem laneSame_toReporting (hs : OrdersPlaced s) (hm : m ≠ l) (r : OrderResult) : LaneSame m s (toReporting l r s) := by
  cases he : laneEntry s l with
  | none => rw [toReporting_empty he]; exact .refl m s
  | some e =>
    obtain ⟨o, ho, -⟩ := hs.order_of_entry he
    refine .of_laneStep (toReporting_laneStep he ho r) hs hm ?_ (inFlight_congr (by simp) m)
    rw [toReporting_generators he, getElem_set_other _ _ _ _ hm]

theorem laneSame_endTest (hs : OrdersPlaced s) (hm : m ≠ l) : LaneSame m s (endTest l s) := by
  unfold endTest
  split
  · exact .refl m s
  · split
    · exact .refl m s
    · split
      · exact laneSame_toReporting hs hm _
      · exact .refl m s

theorem laneSame_stopOrder (hs : OrdersPlaced s) (hm : m ≠ l) (c : Option StopCause) : LaneSame m s (stopOrder l c s) := by
  by_cases hrunning : ∃ o, laneOrder s l = some o ∧ o.life = .running
  · obtain ⟨o, ho, hlife⟩ := hrunning
    obtain ⟨e, he, ho⟩ := laneOrder_eq_some ho
    exact .of_laneStep (stopOrder_laneStep he ho hlife c) hs hm (stopOrder_generator_other l c s hm) (inFlight_congr (by simp) m)
  · rw [stopOrder_of_not_running fun o ho hlife => hrunning ⟨o, ho, hlife⟩]
    exact .refl m s

theorem laneSame_toStopping (hs : OrdersPlaced s) (hm : m ≠ l) (c : Option StopCause) : LaneSame m s (toStopping l c s) := by
  unfold toStopping
  split
  · exact (laneSame_stopOrder hs hm c).trans (laneSame_endTest ((Keeps.after_stopOrder l c s).placed hs) hm)
  · exact .refl m s

theorem inFlight_removeStroke {r : StrokeRecord} (hm : m ≠ r.id.lane) (s : State) : inFlight (removeStroke r s) m = inFlight s m := by
  rw [inFlight_eq_countP, inFlight_eq_countP, removeStroke, List.countP_filter]
  refine List.countP_congr fun x _ => ?_
  simp only [Bool.and_eq_true, beq_iff_eq, Bool.not_eq_true', beq_eq_false_iff_ne]
  refine and_iff_left_of_imp fun hx hid => hm ?_
  rw [← hx, hid]

theorem laneSame_removeStroke {r : StrokeRecord} (hm : m ≠ r.id.lane) (s : State) : LaneSame m s (removeStroke r s) :=
  .of_tables rfl rfl rfl (inFlight_removeStroke hm s)

theorem laneSame_updateGenerator (hm : m ≠ l) (f : Generator → Generator) (s : State) : LaneSame m s (updateGenerator l f s) :=
  .of_tables rfl rfl (getElem_set_other _ _ _ _ hm) rfl

theorem laneSame_strokeFails {r : StrokeRecord} (hs : OrdersPlaced s) (hm : m ≠ r.id.lane) (c : StopCause) : LaneSame m s (strokeFails r c s) := by
  unfold strokeFails
  dsimp only
  split
  · exact laneSame_removeStroke hm s
  · refine ((laneSame_removeStroke hm s).trans (laneSame_updateGenerator hm _ _)).trans (laneSame_stopOrder ?_ hm _)
    exact hs

theorem laneSame_placeBankRequest {r : StrokeRecord} (hs : OrdersPlaced s) (hm : m ≠ r.id.lane) (a : Nat) (k : BankRequestKind) :
    LaneSame m s (placeBankRequest r a k s) := by
  unfold placeBankRequest
  split
  · exact (laneSame_strokeFails hs hm _).trans (laneSame_endTest ((Keeps.after_strokeFails r _ s).placed hs) hm)
  · exact .of_tables rfl rfl rfl rfl

theorem laneSame_placeFirstStep {r : StrokeRecord} (hs : OrdersPlaced s) (hm : m ≠ r.id.lane) (aux : Word) :
    LaneSame m s (placeFirstStep r aux s) := by
  by_cases hload : r.kind = .load
  · rw [placeFirstStep_load hload]
    exact .of_tables rfl rfl rfl rfl
  · rw [placeFirstStep_bank hload]
    exact laneSame_placeBankRequest hs hm _ _

theorem inFlight_recorded (g : Generator) (b : Option BufferId) (r : StrokeRecord) (s : State) (m : Lane) :
    inFlight (recorded l g b r s) m = inFlight s m + if r.id.lane = m then 1 else 0 := by
  have hrecords : (recorded l g b r s).strokes.records = s.strokes.records ++ [r] := rfl
  rw [inFlight_eq_countP, inFlight_eq_countP, hrecords, List.countP_append]
  simp [List.countP_singleton]

theorem laneSame_recorded {r : StrokeRecord} (hr : r.id.lane = l) (hm : m ≠ l) (g : Generator) (b : Option BufferId) (s : State) :
    LaneSame m s (recorded l g b r s) :=
  .of_tables rfl rfl (getElem_set_other _ _ _ _ hm) (by rw [inFlight_recorded, if_neg (by rw [hr]; exact Ne.symm hm), Nat.add_zero])

theorem laneSame_grantBuffer (hs : OrdersPlaced s) (hm : m ≠ l) (b : BufferId) : LaneSame m s (grantBuffer l b s) := by
  cases hwork : laneWork s l with
  | none =>
    rw [grantBuffer, hwork]
    exact .refl m s
  | some w =>
    obtain ⟨o, g, k⟩ := w
    cases hpass : nextFails s l o g k (some b) with
    | none =>
      rw [grantBuffer_places hwork b hpass]
      exact (laneSame_recorded (r := nextRecord l o g k (some b)) rfl hm g (some b) s).trans (laneSame_placeFirstStep (s := recorded l g (some b) _ s) hs hm _)
    | some x =>
      rw [grantBuffer_stops hwork b hpass]
      exact laneSame_toStopping hs hm _

end Other

/-! ## What the issue test sees -/

theorem LaneSame.laneWork {m : Lane} {s t : State} (h : LaneSame m s t) : laneWork t m = laneWork s m := by
  rw [Machine.laneWork, Machine.laneWork, h.order, h.generator]

theorem LaneSame.mayIssue {m : Lane} {s t : State} (h : LaneSame m s t) (hengine : t.engine = s.engine) (o : PoolOrder) (g : Generator) :
    mayIssueStroke t m o g = mayIssueStroke s m o g := by
  simp only [mayIssueStroke, h.flight, engineIs, hengine]

theorem LaneSame.issuesAlone {m : Lane} {s t : State} (h : LaneSame m s t) (hengine : t.engine = s.engine) :
    issuesAlone t m = issuesAlone s m := by
  simp only [Machine.issuesAlone, h.laneWork, h.mayIssue hengine]

/-- A lane whose generator, if it has one, begins nothing new. -/
def IssuesNothing (s : State) (l : Lane) : Prop := ∀ g, s.strokes.generators[l] = some g → g.issuing = false

theorem IssuesNothing.not_mayIssue {s : State} {l : Lane} (h : IssuesNothing s l) {o : PoolOrder} {g : Generator} {k : StrokeKind}
    (hwork : laneWork s l = some (o, g, k)) : mayIssueStroke s l o g = false := by
  obtain ⟨-, hg, -⟩ := laneWork_eq_some hwork
  rw [mayIssueStroke, h g hg]
  rfl

theorem IssuesNothing.alone {s : State} {l : Lane} (h : IssuesNothing s l) : issuesAlone s l = false :=
  Bool.eq_false_iff.mpr fun halone => by
    obtain ⟨o, g, k, hwork, -, hmay⟩ := issuesAlone_true halone
    exact absurd (hmay.symm.trans (h.not_mayIssue hwork)) (by decide)

/-- The order of a lane whose issue test holds is RUNNING. -/
theorem GeneratorsRun.running {s : State} (h : GeneratorsRun s) {l : Lane} {o : PoolOrder} {g : Generator} {k : StrokeKind}
    (hwork : laneWork s l = some (o, g, k)) (hmay : mayIssueStroke s l o g = true) : o.life = .running := by
  obtain ⟨ho, hg, -⟩ := laneWork_eq_some hwork
  obtain ⟨x, hx, -, hrunning⟩ := h l g hg
  cases hx.symm.trans ho
  exact hrunning ((mayIssueStroke_iff s l o g).mp hmay).1

/-! ## What an issue comes to -/

section Outcome

variable {s : State} {l : Lane} {o : PoolOrder} {g : Generator} {k : StrokeKind}

/-- An order that stops issues nothing more. -/
theorem issuesNothing_toStopping (ho : laneOrder s l = some o) (hlife : o.life = .running) (c : StopCause) :
    IssuesNothing (toStopping l (some c) s) l := by
  obtain ⟨e, he, ho⟩ := laneOrder_eq_some ho
  intro x hx
  by_cases hheld : s.engine.state = .halted ∨ laneInFlight s l = true
  · exact (toStopping_held he ho hlife (.inr hheld)).2 x hx
  · obtain ⟨hlive, hnone⟩ := not_or.mp hheld
    obtain ⟨-, -, hgone⟩ := toStopping_free he ho hlife c hlive (Bool.eq_false_iff.mpr hnone)
    exact absurd (hgone.symm.trans hx) (by simp)

/-- The state a failed stroke's order stops in. -/
def failedRecord (r : StrokeRecord) (s : State) : State := updateGenerator r.id.lane (lowerBarrier r.id.index) (removeStroke r s)

theorem strokeFails_eq {r : StrokeRecord} (ho : laneOrder s r.id.lane = some o) (hseq : o.seq = r.id.seq) (c : StopCause) :
    strokeFails r c s = stopOrder r.id.lane (some c) (failedRecord r s) := by
  refine if_neg ?_
  have hlane : laneOrder (removeStroke r s) r.id.lane = some o := ho
  simp [strokeOrder, hlane, hseq]

/-- The first step joins its bank or the channel's queue; at an UNPOWERED bank the stroke fails and its order stops (R95, R126). -/
theorem placeFirstStep_outcome (hwork : laneWork s l = some (o, g, k)) (hlife : o.life = .running) (b : Option BufferId) (aux : Word)
    {r : StrokeRecord} (hr : r = nextRecord l o g k b) :
    ((placeFirstStep r aux (recorded l g b r s)).strokes = (recorded l g b r s).strokes
        ∧ (placeFirstStep r aux (recorded l g b r s)).pool = s.pool ∧ (placeFirstStep r aux (recorded l g b r s)).table = s.table)
      ∨ (IssuesNothing (placeFirstStep r aux (recorded l g b r s)) l
        ∧ (placeFirstStep r aux (recorded l g b r s)).strokes.buffers = (removeStroke r (recorded l g b r s)).strokes.buffers) := by
  obtain ⟨ho, -, -⟩ := laneWork_eq_some hwork
  have hlane : r.id.lane = l := by rw [hr]; rfl
  have hseq : o.seq = r.id.seq := by rw [hr]; rfl
  by_cases hload : r.kind = .load
  · rw [placeFirstStep_load hload]
    exact .inl ⟨rfl, rfl, rfl⟩
  · rw [placeFirstStep_bank hload]
    by_cases hpower : s.banks[addrBank r.place].state = .unpowered
    · rw [placeBankRequest_fails (s := recorded l g b r s) hpower, hlane]
      have horder : laneOrder (failedRecord r (recorded l g b r s)) l = some o := ho
      rw [strokeFails_eq (by rw [hlane]; exact ho) hseq, hlane, ← toStopping_running horder hlife]
      exact .inr ⟨issuesNothing_toStopping horder hlife _, toStopping_buffers l _ _⟩
    · rw [placeBankRequest_joins (s := recorded l g b r s) hpower]
      exact .inl ⟨rfl, rfl, rfl⟩

/-! ## FILL and arming strokes (R93) -/

/-- Each issue alone uses up one of the four strokes in flight, or stops its order. -/
theorem issueStroke_alone (hgen : GeneratorsRun s) (halone : issuesAlone s l = true) :
    issuesAlone (issueStroke l none s) l = false ∨ inFlight (issueStroke l none s) l = inFlight s l + 1 := by
  obtain ⟨o, g, k, hwork, -, hmay⟩ := issuesAlone_true halone
  have hlife := hgen.running hwork hmay
  cases hpass : nextFails s l o g k none with
  | some x =>
    rw [issueStroke_stops hwork none hpass]
    exact .inl (issuesNothing_toStopping (laneWork_eq_some hwork).1 hlife _).alone
  | none =>
    rw [issueStroke_places hwork hpass]
    obtain ⟨hstrokes, -⟩ | ⟨hnothing, -⟩ := placeFirstStep_outcome hwork hlife none o.entry.aux rfl
    · refine .inr ((inFlight_congr (s := recorded l g none (nextRecord l o g k none) s) (by rw [hstrokes]) l).trans ?_)
      rw [inFlight_recorded]
      exact congrArg (inFlight s l + ·) (if_pos rfl)
    · exact .inl hnothing.alone

theorem issueAlone_of_false (h : issuesAlone s l = false) (n : Nat) : issueAlone n l s = s := by
  cases n with
  | zero => rfl
  | succ n => exact if_neg (by simp [h])

theorem issueAlone_of_true (h : issuesAlone s l = true) (n : Nat) : issueAlone (n + 1) l s = issueAlone n l (issueStroke l none s) := if_pos h

theorem issueAlone_ends (n : Nat) (hs : OrdersPlaced s) (hgen : GeneratorsRun s) (hroom : 4 ≤ inFlight s l + n) :
    issuesAlone (issueAlone n l s) l = false := by
  induction n generalizing s with
  | zero => exact Bool.eq_false_iff.mpr fun h => absurd (room_of_issuesAlone h) (Nat.not_lt.mpr hroom)
  | succ n ih =>
    cases halone : issuesAlone s l with
    | false => rwa [issueAlone_of_false halone]
    | true =>
      have hkeeps := Keeps.after_issueStroke none (room_of_issuesAlone halone)
      rw [issueAlone_of_true halone]
      obtain hstops | hflight := issueStroke_alone hgen halone
      · rwa [issueAlone_of_false hstops]
      · exact ih (hkeeps.placed hs) (hkeeps.generators hs hgen) (by omega)

/-! ## The grants (R98) -/

theorem freeBuffer_eq_none_iff (s : State) : freeBuffer s = none ↔ ∀ b : BufferId, s.strokes.buffers[b] ≠ none := by
  rw [freeBuffer, List.find?_eq_none]
  simp [List.mem_finRange]

theorem freeBuffer_free {b : BufferId} (h : freeBuffer s = some b) : s.strokes.buffers[b] = none := by
  rw [freeBuffer] at h
  have hfree := List.find?_some h
  exact Option.isNone_iff_eq_none.mp hfree

theorem mem_grantOrder (last m : Lane) : m ∈ grantOrder last := by
  revert last m
  decide

theorem nextWanter_eq_none_iff (s : State) : nextWanter s = none ↔ ∀ m, wantsBuffer s m = false := by
  rw [nextWanter, List.find?_eq_none]
  exact ⟨fun h m => Bool.eq_false_iff.mpr (h m (mem_grantOrder _ m)), fun h m _ => by simp [h m]⟩

theorem grantBuffers_of_none (h : freeBuffer s = none ∨ nextWanter s = none) (n : Nat) : grantBuffers n s = s := by
  cases n with
  | zero => rfl
  | succ n =>
    unfold grantBuffers
    split
    · rename_i b l hfree hnext
      obtain h | h := h
      · exact absurd (hfree.symm.trans h) (by simp)
      · exact absurd (hnext.symm.trans h) (by simp)
    · rfl

theorem grantBuffers_of_some {b : BufferId} (hfree : freeBuffer s = some b) (hnext : nextWanter s = some l) (n : Nat) :
    grantBuffers (n + 1) s = grantBuffers n (grantBuffer l b s) := by
  simp only [grantBuffers, hfree, hnext]

/-- What grants can still use up: the free buffers and the generators that issue. -/
def grantsLeft (s : State) : Nat :=
  (List.finRange 8).countP (fun b : BufferId => s.strokes.buffers[b].isNone) + allLanes.countP fun l => s.strokes.generators[l].any (·.issuing)

theorem countP_lt_of_mem {α : Type} {p q : α → Bool} {l : List α} {a : α} (h : ∀ x, p x = true → q x = true) (ha : a ∈ l) (hp : p a = false)
    (hq : q a = true) : l.countP p < l.countP q := by
  induction l with
  | nil => exact absurd ha List.not_mem_nil
  | cons x l ih =>
    have hle : l.countP p ≤ l.countP q := List.countP_mono_left fun y _ => h y
    obtain rfl | ha := List.mem_cons.mp ha
    · rw [List.countP_cons_of_neg (by simp [hp]), List.countP_cons_of_pos hq]
      exact Nat.lt_succ_of_le hle
    · have hlt := ih ha
      rw [List.countP_cons, List.countP_cons]
      cases hx : p x with
      | false => exact Nat.lt_of_lt_of_le (by simpa using hlt) (Nat.le_add_right _ _)
      | true => simpa [h x hx] using hlt

/-- A lane whose generator stops issuing leaves less to grant. -/
theorem grantsLeft_lt_of_stop {t : State} (hg : s.strokes.generators[l] = some g) (hissuing : g.issuing = true)
    (hnothing : IssuesNothing t l) (hother : ∀ m, m ≠ l → t.strokes.generators[m] = s.strokes.generators[m])
    (hfree : ∀ b : BufferId, t.strokes.buffers[b].isNone = s.strokes.buffers[b].isNone) : grantsLeft t < grantsLeft s := by
  have hsilent : t.strokes.generators[l].any (·.issuing) = false := by
    rw [Option.any_eq_false]
    intro x hx
    simpa using hnothing x hx
  refine Nat.add_lt_add_of_le_of_lt (Nat.le_of_eq (List.countP_congr fun b _ => by rw [hfree b])) ?_
  refine countP_lt_of_mem (fun m hm => ?_) (mem_allLanes l) hsilent (by simp only [hg, Option.any_some, hissuing])
  by_cases hml : m = l
  · rw [hml, hsilent] at hm
    exact absurd hm (by decide)
  · rwa [hother m hml] at hm

/-- A buffer that is taken leaves less to grant. -/
theorem grantsLeft_recorded {b : BufferId} (hg : s.strokes.generators[l] = some g) (hfree : s.strokes.buffers[b] = none) (r : StrokeRecord) :
    grantsLeft (recorded l g (some b) r s) < grantsLeft s := by
  refine Nat.add_lt_add_of_lt_of_le ?_ (Nat.le_of_eq (List.countP_congr fun m _ => ?_))
  · refine countP_lt_of_mem (fun c hc => ?_) (List.mem_finRange b) ?_ (by rw [hfree]; rfl)
    · by_cases hcb : c = b
      · rw [hcb, hfree]
        rfl
      · rwa [show (recorded l g (some b) r s).strokes.buffers[c] = s.strokes.buffers[c] from getElem_set_other _ _ _ _ hcb] at hc
    · rw [show (recorded l g (some b) r s).strokes.buffers[b] = some { holder := r.id, data := none } from getElem_set_same _ _ _]
      rfl
  · by_cases hml : m = l
    · rw [hml, hg, show (recorded l g (some b) r s).strokes.generators[l] = some { g with nextStroke := g.nextStroke + 1 } from
        getElem_set_same _ _ _]
      rfl
    · rw [show (recorded l g (some b) r s).strokes.generators[m] = s.strokes.generators[m] from getElem_set_other _ _ _ _ hml]

/-- Each grant takes a buffer or stops an order; the lane it grants issues nothing alone. -/
theorem grantBuffer_progress {b : BufferId} (hs : OrdersPlaced s) (hgen : GeneratorsRun s) (hwants : wantsBuffer s l = true)
    (hfree : s.strokes.buffers[b] = none) :
    grantsLeft (grantBuffer l b s) < grantsLeft s ∧ issuesAlone (grantBuffer l b s) l = false := by
  obtain ⟨o, g, k, hwork, hk, hmay⟩ := wantsBuffer_true hwants
  obtain ⟨ho, hg, hkind⟩ := laneWork_eq_some hwork
  have hlife := hgen.running hwork hmay
  obtain ⟨hissuing, -⟩ := (mayIssueStroke_iff s l o g).mp hmay
  have hother (m : Lane) (hm : m ≠ l) := (laneSame_grantBuffer hs hm b).generator
  cases hpass : nextFails s l o g k (some b) with
  | some x =>
    rw [grantBuffer_stops hwork b hpass] at hother ⊢
    have hnothing := issuesNothing_toStopping ho hlife (regionCause (regionState s x))
    exact ⟨grantsLeft_lt_of_stop hg hissuing hnothing hother fun c => by rw [toStopping_buffers], hnothing.alone⟩
  | none =>
    rw [grantBuffer_places hwork b hpass] at hother ⊢
    generalize hr : nextRecord l o g k (some b) = r at hother ⊢
    obtain ⟨hstrokes, hpool, htable⟩ | ⟨hnothing, hbuffers⟩ := placeFirstStep_outcome hwork hlife (some b) o.entry.aux hr.symm
    · refine ⟨?_, ?_⟩
      · rw [grantsLeft, hstrokes]
        exact grantsLeft_recorded hg hfree r
      · have hgenerator : (placeFirstStep r o.entry.aux (recorded l g (some b) r s)).strokes.generators[l]
            = some { g with nextStroke := g.nextStroke + 1 } := by
          rw [hstrokes]
          exact getElem_set_same _ _ _
        rw [issuesAlone_eq (laneWork_eq ((laneOrder_congr (by rw [hpool]) htable l).trans ho) hgenerator hkind), hk]
        rfl
    · refine ⟨grantsLeft_lt_of_stop hg hissuing hnothing hother fun c => ?_, hnothing.alone⟩
      have hremoved : (removeStroke r (recorded l g (some b) r s)).strokes.buffers
          = (s.strokes.buffers.set b (some { holder := r.id, data := none })).set b none := by
        rw [← hr]
        rfl
      rw [hbuffers, hremoved]
      by_cases hcb : c = b
      · rw [hcb, getElem_set_same, hfree]
      · rw [getElem_set_other _ _ _ _ hcb, getElem_set_other _ _ _ _ hcb]

/-- The grants end where no buffer is free or no wanter remains, and a lane that issued nothing alone still does not. -/
theorem grantBuffers_ends (n : Nat) (hs : OrdersPlaced s) (hgen : GeneratorsRun s) (hleft : grantsLeft s ≤ n) :
    (freeBuffer (grantBuffers n s) = none ∨ nextWanter (grantBuffers n s) = none)
      ∧ (issuesAlone s l = false → issuesAlone (grantBuffers n s) l = false) := by
  induction n generalizing s with
  | zero =>
    refine ⟨.inl ((freeBuffer_eq_none_iff _).mpr fun b hb => ?_), fun h => h⟩
    have hnone : (List.finRange 8).countP (fun b : BufferId => s.strokes.buffers[b].isNone) = 0 :=
      Nat.le_zero.mp (Nat.le_trans (Nat.le_add_right _ _) hleft)
    exact List.countP_eq_zero.mp hnone b (List.mem_finRange b) (by rw [show s.strokes.buffers[b] = none from hb]; rfl)
  | succ n ih =>
    by_cases hstop : freeBuffer s = none ∨ nextWanter s = none
    · rw [grantBuffers_of_none hstop]
      exact ⟨hstop, id⟩
    · obtain ⟨hsome, hwanter⟩ := not_or.mp hstop
      obtain ⟨b, hfree⟩ := Option.ne_none_iff_exists'.mp hsome
      obtain ⟨m, hnext⟩ := Option.ne_none_iff_exists'.mp hwanter
      have hwants := wants_of_nextWanter hnext
      obtain ⟨hless, halone⟩ := grantBuffer_progress hs hgen hwants (freeBuffer_free hfree)
      have hkeeps := Keeps.after_grantBuffer b hwants
      rw [grantBuffers_of_some hfree hnext]
      obtain ⟨hends, hstill⟩ := ih (hkeeps.placed hs) (hkeeps.generators hs hgen) (by omega)
      refine ⟨hends, fun h => hstill ?_⟩
      by_cases hml : l = m
      · rwa [hml]
      · rwa [(laneSame_grantBuffer hs hml b).issuesAlone (by simp)]

theorem grantsLeft_le (s : State) : grantsLeft s ≤ 12 :=
  Nat.add_le_add (List.countP_le_length (l := List.finRange 8)) (List.countP_le_length (l := allLanes))

theorem issueMore_ends (hs : OrdersPlaced s) (hgen : GeneratorsRun s) : issuesAlone (issueMore l s) l = false
    ∧ (freeBuffer (issueMore l s) = none ∨ ∀ m, wantsBuffer (issueMore l s) m = false) := by
  have hkeeps := Keeps.after_issueAlone 4 l s
  obtain ⟨hends, hstill⟩ := grantBuffers_ends (l := l) 12 (hkeeps.placed hs) (hkeeps.generators hs hgen) (grantsLeft_le _)
  refine ⟨hstill (issueAlone_ends 4 hs hgen (Nat.le_add_left 4 _)), hends.imp_right fun h => ?_⟩
  exact (nextWanter_eq_none_iff _).mp h

end Outcome

/-- Settles O40: the allocator's turn, and where the issue that follows an event ends. -/
theorem buffersGoRoundRobin : Obligations.BuffersGoRoundRobin := by
  refine ⟨fun s h => ?_, fun s l hnext => ?_, fun s b l hfree hnext => ?_, sweepReady_iff, fun s l o g k ho hg hk => ?_, fun s l n => ?_,
    fun s l hs hgen => issueMore_ends hs hgen⟩
  · refine congrArg (fun t => Host.Outcome.next (settle s t)) (grantBuffers_of_none ?_ 12)
    exact h.imp (freeBuffer_eq_none_iff s).mpr (nextWanter_eq_none_iff s).mpr
  · have hascends : (grantOrder s.strokes.lastGranted).Pairwise fun p q =>
        (p - s.strokes.lastGranted - 1).val < (q - s.strokes.lastGranted - 1).val := by
      generalize s.strokes.lastGranted = last
      revert last
      decide
    obtain ⟨-, hwants, hleast⟩ :=
      (find?_ascending_iff (key := fun m : Lane => (m - s.strokes.lastGranted - 1).val) hascends (wantsBuffer s) l).mp hnext
    exact ⟨hwants, fun m => hleast m (mem_grantOrder _ m)⟩
  · have hgrants : grants s = grantBuffers 11 (grantBuffer l b s) := grantBuffers_of_some hfree hnext 11
    refine ⟨congrArg (fun t => Host.Outcome.next (settle s t)) hgrants, ?_, fun hends => ?_⟩
    · exact congrArg (fun t => Host.Outcome.next (settle s t)) (issueOne_granted (wants_of_nextWanter hnext) hfree hnext)
    · exact congrArg (fun t => Host.Outcome.next (settle s t)) (hgrants.trans (grantBuffers_of_none hends 11))
  · have hwork := laneWork_eq ho hg hk
    rw [issuesAlone_eq hwork, wantsBuffer_eq hwork, Bool.and_eq_true, Bool.and_eq_true, Bool.not_eq_true', needsBuffer_eq_false_iff,
      needsBuffer_iff, mayIssueStroke_iff, and_assoc]
    exact ⟨Iff.rfl, Iff.rfl⟩
  · exact ⟨rfl, rfl, fun h => issueAlone_of_false h n, fun h => ⟨issueAlone_of_true h n,
      congrArg (fun t => Host.Outcome.next (settle s t)) (issueOne_alone h)⟩, rfl, fun h => grantBuffers_of_none h n,
      fun b m hfree hnext => grantBuffers_of_some hfree hnext n⟩

end Sys2Proof.Safety
end

section
/-! PROOFS. The end of a DATA access and of a stroke (R83 to R85, R101 to R112, R157). -/

namespace Sys2Proof.Safety

open Sys2Proof.Machine

/-! ## DATA accesses (R101, R102, R106) -/

theorem findStroke_id {s : State} {i : StrokeId} {r : StrokeRecord} (h : findStroke s i = some r) : r.id = i := by
  rw [findStroke] at h
  have hid := List.find?_some h
  exact beq_iff_eq.mp hid

/-- A stroke's record and buffer as its first step has left them: the bytes are in the buffer, the write is next. -/
def lineReady (r : StrokeRecord) (f : StrokeRecord → StrokeRecord) (data : Line) (s : State) : State :=
  updateStroke r.id f (fillBuffer r data s)

theorem lineReady_eq (r : StrokeRecord) (f : StrokeRecord → StrokeRecord) (data : Line) (s : State) :
    lineReady r f data s = { s with strokes := { s.strokes with
      records := s.strokes.records.map fun x => if x.id == r.id then f x else x
      buffers := (fillBuffer r data s).strokes.buffers } } := by
  unfold lineReady updateStroke fillBuffer
  cases r.buffer <;> rfl

theorem fillBuffer_buffers {r : StrokeRecord} {b : BufferId} (h : r.buffer = some b) (data : Line) (s : State) :
    (fillBuffer r data s).strokes.buffers = s.strokes.buffers.set b (some { holder := r.id, data := some data }) := by
  rw [fillBuffer, h]

theorem placeWrite_joins {s : State} {r : StrokeRecord} {a : Nat} {data : Line} (h : s.banks[addrBank a].state ≠ .unpowered) :
    placeWrite r a data s = joinBank (addrBank a) (bankRequestAt r a (.write data)) s := by
  refine if_neg ?_
  simp only [bankUnpowered, beq_iff_eq]
  exact h

theorem placeWrite_fails {s : State} {r : StrokeRecord} {a : Nat} {data : Line} (h : s.banks[addrBank a].state = .unpowered) :
    placeWrite r a data s = strokeFailed r .regionDropped s := by
  refine if_pos ?_
  simp only [bankUnpowered, beq_iff_eq]
  exact h

theorem hostReadDone_eq {s : State} {i : StrokeId} {r : StrokeRecord} (h : findStroke s i = some r) {a : Access} (ha : a.request = .hostRead i)
    (data : Line) : hostReadDone data a s = placeWrite r r.place data (lineReady r (fun x => { x with phase := .arrayWriting }) data s) := by
  rw [hostReadDone, ha]
  simp only [Request.readStroke, Option.bind_some, h]
  rfl

theorem hostWriteDone_eq {s : State} {i : StrokeId} {r : StrokeRecord} (h : findStroke s i = some r) {a : Access} (ha : a.request = .hostWrite i) :
    hostWriteDone a s = strokeDone r s := by
  rw [hostWriteDone, ha]
  simp only [Request.writeStroke, Option.bind_some, h]

/-- Settles O41: the ends of DATA accesses. -/
theorem dataAccessesEnd : Obligations.DataAccessesEnd := by
  refine ⟨fun s tag i r data hawaits hfind => ?_, fun s tag i r hawaits hfind => ?_, fun s tag i r hawaits hfind => ?_⟩
  · obtain ⟨a, -, ha, heq⟩ := onResponse_awaited (hostReadDone data) hawaits (sort := fun r => r.readStroke.isSome) rfl
    have hdone := hostReadDone_eq (s := freed s) hfind ha data
    have hid := findStroke_id hfind
    have hready := lineReady_eq r (fun x => { x with phase := .arrayWriting }) data (freed s)
    generalize hv : lineReady r (fun x => { x with phase := .arrayWriting }) data (freed s) = v at hdone hready
    have hbanks : v.banks = s.banks := by rw [hready]; rfl
    refine ⟨v, by rw [hready], ?_, fun b hb => ?_, by rw [hready]; rfl, by rw [hready]; rfl, fun hpower => ?_, fun hpower => ?_⟩
    · rw [hready]
      simp only [hid, beq_iff_eq]
      rfl
    · rw [hready]
      exact fillBuffer_buffers hb data (freed s)
    · refine congrArg Host.Outcome.next (heq.trans (congrArg (settle (freed s)) (hdone.trans ?_)))
      rw [placeWrite_joins (by rw [hbanks]; exact hpower), bankRequestAt, hid]
    · refine congrArg Host.Outcome.next (heq.trans (congrArg (settle (freed s)) (hdone.trans ?_)))
      exact placeWrite_fails (by rw [hbanks]; exact hpower)
  · obtain ⟨a, -, ha, heq⟩ := onResponse_awaited hostWriteDone hawaits (sort := fun r => r.writeStroke.isSome) rfl
    exact congrArg Host.Outcome.next (heq.trans (congrArg (settle (freed s)) (hostWriteDone_eq (s := freed s) hfind ha)))
  · have hfails : dataFails i (freed s) = strokeFailed r .hostBusFault (freed s) := by
      have hfind : findStroke (freed s) i = some r := hfind
      rw [dataFails, hfind]
    obtain hawaits | hawaits := hawaits
    · obtain ⟨a, -, ha, heq⟩ := onResponse_awaited (fun a => accessFails a.request) hawaits (sort := Request.isData) rfl
      refine congrArg Host.Outcome.next (heq.trans (congrArg (settle (freed s)) ?_))
      rw [ha, ← hfails]
      rfl
    · obtain ⟨a, -, ha, heq⟩ := onResponse_awaited (fun a => accessFails a.request) hawaits (sort := Request.isData) rfl
      refine congrArg Host.Outcome.next (heq.trans (congrArg (settle (freed s)) ?_))
      rw [ha, ← hfails]
      rfl

/-! ## The strokes completed in order, and the barrier (R109, R110) -/

/-- The count of strokes completed in order passes the strokes that completed ahead and stops at the first that has not. -/
theorem passAhead_spec (n p : Nat) (ahead : List Nat) (h : ahead.length ≤ n) :
    p ≤ (passAhead n p ahead).1 ∧ (∀ j, p ≤ j → j < (passAhead n p ahead).1 → j ∈ ahead)
      ∧ (passAhead n p ahead).1 ∉ (passAhead n p ahead).2
      ∧ ∀ j, (passAhead n p ahead).1 ≤ j → (j ∈ (passAhead n p ahead).2 ↔ j ∈ ahead) := by
  induction n generalizing p ahead with
  | zero =>
    have hnil : ahead = [] := List.eq_nil_of_length_eq_zero (Nat.le_zero.mp h)
    subst hnil
    exact ⟨Nat.le_refl p, fun j hpj hj => absurd hj (Nat.not_lt.mpr hpj), List.not_mem_nil, fun j _ => Iff.rfl⟩
  | succ n ih =>
    by_cases hmem : p ∈ ahead
    · have hstep : passAhead (n + 1) p ahead = passAhead n (p + 1) (ahead.erase p) := if_pos (List.contains_iff_mem.mpr hmem)
      obtain ⟨hle, hpassed, hstop, hkept⟩ := ih (p + 1) (ahead.erase p) (by rw [List.length_erase_of_mem hmem]; omega)
      rw [hstep]
      refine ⟨by omega, fun j hpj hj => ?_, hstop, fun j hj => (hkept j hj).trans (List.mem_erase_of_ne (by omega))⟩
      obtain rfl | hlt := Nat.eq_or_lt_of_le hpj
      · exact hmem
      · exact List.mem_of_mem_erase (hpassed j hlt hj)
    · have hstep : passAhead (n + 1) p ahead = (p, ahead) := if_neg (by simpa using hmem)
      rw [hstep]
      exact ⟨Nat.le_refl p, fun j hpj hj => absurd hj (Nat.not_lt.mpr hpj), hmem, fun j _ => Iff.rfl⟩

theorem enterPrefix_at {g : Generator} {i : Nat} (h : i = g.prefixLen) : enterPrefix i g = { g with
    prefixLen := (passAhead g.ahead.length (i + 1) g.ahead).1, ahead := (passAhead g.ahead.length (i + 1) g.ahead).2 } := if_pos h

theorem enterPrefix_ahead {g : Generator} {i : Nat} (hi : g.prefixLen < i) (h : ∀ b, g.barrier = some b → i < b) :
    enterPrefix i g = { g with ahead := g.ahead ++ [i] } := by
  refine (if_neg (by omega)).trans (if_pos ?_)
  simpa [hi, Option.all_eq_true] using h

theorem enterPrefix_above {g : Generator} {i b : Nat} (hi : g.prefixLen < i) (hb : g.barrier = some b) (h : b ≤ i) : enterPrefix i g = g :=
  (if_neg (by omega)).trans (if_neg (by simp [hb, h]))

theorem enterPrefix_armingList (i : Nat) (g : Generator) : (enterPrefix i g).armingList = g.armingList := by
  unfold enterPrefix
  (repeat' split) <;> rfl

theorem lowerBarrier_spec (i : Nat) (g : Generator) : (lowerBarrier i g).prefixLen = g.prefixLen
    ∧ ∃ b, (lowerBarrier i g).barrier = some b ∧ b ≤ i ∧ (b = i ∨ g.barrier = some b) := by
  unfold lowerBarrier
  split
  · exact ⟨rfl, i, rfl, Nat.le_refl i, .inl rfl⟩
  · rename_i h
    obtain ⟨b, hb, hle⟩ : ∃ b, g.barrier = some b ∧ b ≤ i := by simpa [Option.all_eq_true] using h
    exact ⟨rfl, b, hb, hle, .inr hb⟩

/-! ## A stroke completes (R108 to R110) -/

section Stroke

variable {s : State} {r : StrokeRecord} {e : TableEntry} {o : PoolOrder} {g : Generator}

theorem removeStroke_records (r : StrokeRecord) (s : State) : (removeStroke r s).strokes.records = s.strokes.records.filter (fun x => x.id ≠ r.id) := by
  rw [removeStroke]
  refine List.filter_congr fun x _ => ?_
  by_cases hx : x.id = r.id <;> simp [hx]

theorem removeStroke_buffers {b : BufferId} (h : r.buffer = some b) (s : State) : (removeStroke r s).strokes.buffers = s.strokes.buffers.set b none := by
  rw [removeStroke, h]

/-- A completed stroke: its record is gone, its corrected words are counted, and it counts as completed in order. -/
def completedRecord (r : StrokeRecord) (s : State) : State :=
  updateGenerator r.id.lane (enterPrefix r.id.index) (addCorrected r.id.lane r.corrected (removeStroke r s))

theorem strokeOrder_isSome (ho : laneOrder s r.id.lane = some o) (hseq : o.seq = r.id.seq) : (strokeOrder (removeStroke r s) r.id).isNone = false := by
  have hlane : laneOrder (removeStroke r s) r.id.lane = some o := ho
  simp [strokeOrder, hlane, hseq]

theorem strokeCompletes_data (ho : laneOrder s r.id.lane = some o) (hseq : o.seq = r.id.seq) (hkind : r.kind ≠ .arming) :
    strokeCompletes r s = copyDone r.id.lane (completedRecord r s) := by
  rw [strokeCompletes]
  dsimp only
  rw [if_neg (by simp [strokeOrder_isSome ho hseq]), if_neg hkind]
  rfl

theorem strokeCompletes_arming (ho : laneOrder s r.id.lane = some o) (hseq : o.seq = r.id.seq) (hkind : r.kind = .arming) :
    strokeCompletes r s = armingReport r.id (addrRegion r.place) (copyDone r.id.lane (completedRecord r s)) := by
  rw [strokeCompletes]
  dsimp only
  rw [if_neg (by simp [strokeOrder_isSome ho hseq]), if_pos hkind]
  rfl

theorem completedRecord_laneStep (he : laneEntry s r.id.lane = some e) (ho : slotOrder s e.slot = some o) :
    LaneStep s (completedRecord r s) r.id.lane e e o { o with corrected := min (o.corrected + r.corrected) 65535 } := by
  have hstep : LaneStep (removeStroke r s) (addCorrected r.id.lane r.corrected (removeStroke r s)) r.id.lane e e o
      { o with corrected := min (o.corrected + r.corrected) 65535 } :=
    updateLane_laneStep (f := fun o => { o with corrected := min (o.corrected + r.corrected) Config.maxCorrected }) (g := id)
      (s := removeStroke r s) he ho rfl rfl fun h => h
  exact ⟨he, ho, hstep.slots, hstep.table, hstep.queues, hstep.slot, hstep.same, hstep.life⟩

theorem completedRecord_generator (hg : s.strokes.generators[r.id.lane] = some g) :
    (completedRecord r s).strokes.generators[r.id.lane] = some (enterPrefix r.id.index g) := by
  have hgen : (addCorrected r.id.lane r.corrected (removeStroke r s)).strokes.generators[r.id.lane] = some g := by
    simp only [addCorrected_frame]
    exact hg
  rw [completedRecord, updateGenerator, setGenerator_generators, getElem_set_same, hgen]
  rfl

theorem completedRecord_records (r : StrokeRecord) (s : State) :
    (completedRecord r s).strokes.records = s.strokes.records.filter (fun x => x.id ≠ r.id) := by
  rw [← removeStroke_records]
  simp [completedRecord]

theorem completedRecord_buffers {b : BufferId} (h : r.buffer = some b) : (completedRecord r s).strokes.buffers = s.strokes.buffers.set b none := by
  rw [← removeStroke_buffers h]
  simp [completedRecord, updateGenerator, setGenerator]

theorem completedRecord_side (r : StrokeRecord) (s : State) : SamePort s (completedRecord r s) ∧ (completedRecord r s).intake = s.intake
    ∧ (completedRecord r s).channel = s.channel ∧ SameArraySide s (completedRecord r s) := by
  simp [completedRecord, SamePort, SameArraySide]

theorem copyDone_data {l : Lane} (hg : s.strokes.generators[l] = some g) (hdata : g.armingList = []) :
    copyDone l s = updateLane l (fun o => { o with done := 64 * g.prefixLen }) id s := by
  rw [copyDone, hg]
  dsimp only
  rw [hdata]
  rfl

theorem copyDone_arming {l : Lane} (hg : s.strokes.generators[l] = some g) (harming : g.armingList ≠ []) : copyDone l s = s := by
  rw [copyDone, hg]
  exact if_neg (by simpa using harming)

/-! ## A stroke fails (R109) -/

theorem failedRecord_generator (hg : s.strokes.generators[r.id.lane] = some g) :
    (failedRecord r s).strokes.generators[r.id.lane] = some (lowerBarrier r.id.index g) := by
  have hgen : (removeStroke r s).strokes.generators[r.id.lane] = some g := hg
  rw [failedRecord, updateGenerator, setGenerator_generators, getElem_set_same, hgen]
  rfl

theorem stopLane_generator {l : Lane} (hg : s.strokes.generators[l] = some g) (c : Option StopCause) :
    (stopLane l c s).strokes.generators[l] = some { g with issuing := false } := by
  have hgen : (updateLane l (fun o => { o with life := .stopping, stopCause := c }) id s).strokes.generators[l] = some g := by
    simp only [updateLane_frame]
    exact hg
  rw [stopLane, stopIssuing, setGenerator_generators, getElem_set_same, hgen]
  rfl

theorem stopOrder_generator {l : Lane} (ho : laneOrder s l = some o) (hlife : o.life = .running) (hg : s.strokes.generators[l] = some g)
    (c : Option StopCause) : (stopOrder l c s).strokes.generators[l] = some { g with issuing := false } := by
  rw [stopOrder_running ho hlife]
  simp only [dropArming_frame]
  exact stopLane_generator hg c

theorem strokeFails_records (ho : laneOrder s r.id.lane = some o) (hseq : o.seq = r.id.seq) (c : StopCause) :
    (strokeFails r c s).strokes.records = s.strokes.records.filter (fun x => x.id ≠ r.id) := by
  rw [strokeFails_eq ho hseq, ← removeStroke_records]
  simp [failedRecord]

theorem strokeFails_buffers {b : BufferId} (ho : laneOrder s r.id.lane = some o) (hseq : o.seq = r.id.seq) (h : r.buffer = some b)
    (c : StopCause) : (strokeFails r c s).strokes.buffers = s.strokes.buffers.set b none := by
  rw [strokeFails_eq ho hseq, stopOrder_buffers, ← removeStroke_buffers h]
  rfl

theorem strokeFails_side (ho : laneOrder s r.id.lane = some o) (hseq : o.seq = r.id.seq) (c : StopCause) :
    SamePort s (strokeFails r c s) ∧ (strokeFails r c s).intake = s.intake ∧ (strokeFails r c s).channel = s.channel
      ∧ (strokeFails r c s).domains = s.domains ∧ (strokeFails r c s).array = s.array := by
  refine ⟨by simp [SamePort], by simp, ?_, by simp, by simp⟩
  rw [strokeFails_eq ho hseq, stopOrder_channel]
  rfl

theorem strokeFails_running (he : laneEntry s r.id.lane = some e) (ho : slotOrder s e.slot = some o) (hseq : o.seq = r.id.seq)
    (hlife : o.life = .running) (c : StopCause) :
    LaneStep s (strokeFails r c s) r.id.lane e e o { o with life := .stopping, stopCause := some c } := by
  rw [strokeFails_eq ((laneOrder_of_entry he).trans ho) hseq]
  have hstep := stopOrder_laneStep (s := failedRecord r s) he ho hlife (some c)
  exact ⟨he, ho, hstep.slots, hstep.table, hstep.queues, hstep.slot, hstep.same, hstep.life⟩

/-! ## The end tests (R111, R112) -/

theorem dataCompleteTest_stays {l : Lane} (ho : laneOrder s l = some o) (hg : s.strokes.generators[l] = some g)
    (h : o.life ≠ .running ∨ g.armingList ≠ [] ∨ g.prefixLen ≠ g.strokeCount) : dataCompleteTest l s = s := by
  rw [dataCompleteTest, hg, ho]
  refine if_neg fun htest => ?_
  simp only [Bool.and_eq_true, List.isEmpty_iff, beq_iff_eq] at htest
  obtain ⟨⟨harming, hprefix⟩, hlife⟩ := htest
  simp [harming, hprefix, hlife] at h

theorem dataCompleteTest_reports {l : Lane} (ho : laneOrder s l = some o) (hg : s.strokes.generators[l] = some g)
    (hlife : o.life = .running) (harming : g.armingList = []) (hprefix : g.prefixLen = g.strokeCount) :
    dataCompleteTest l s = toReporting l (dataResult o) s := by
  rw [dataCompleteTest, hg, ho]
  exact if_pos (by simp [harming, hprefix, hlife])

theorem endTest_of_life {l : Lane} (ho : laneOrder s l = some o) (h : o.life ≠ .stopping) : endTest l s = s :=
  endTest_stays fun x hx => by
    cases ho.symm.trans hx
    exact .inl h

end Stroke

/-! ## Lanes that issue nothing are left alone by the issue of the others -/

theorem laneSame_grantBuffers {s : State} {l : Lane} (n : Nat) (hs : OrdersPlaced s) (h : IssuesNothing s l) : LaneSame l s (grantBuffers n s) := by
  induction n generalizing s with
  | zero => exact .refl l s
  | succ n ih =>
    by_cases hstop : freeBuffer s = none ∨ nextWanter s = none
    · rw [grantBuffers_of_none hstop]
      exact .refl l s
    · obtain ⟨hsome, hwanter⟩ := not_or.mp hstop
      obtain ⟨b, hfree⟩ := Option.ne_none_iff_exists'.mp hsome
      obtain ⟨m, hnext⟩ := Option.ne_none_iff_exists'.mp hwanter
      have hwants := wants_of_nextWanter hnext
      have hml : l ≠ m := by
        rintro rfl
        obtain ⟨o, g, k, hwork, -, hmay⟩ := wantsBuffer_true hwants
        exact absurd (hmay.symm.trans (h.not_mayIssue hwork)) (by decide)
      have hsame := laneSame_grantBuffer hs hml b
      rw [grantBuffers_of_some hfree hnext]
      refine hsame.trans (ih ((Keeps.after_grantBuffer b hwants).placed hs) fun g hg => h g ?_)
      rw [← hsame.generator, hg]

theorem laneSame_issueMore {s : State} {l : Lane} (hs : OrdersPlaced s) (h : IssuesNothing s l) : LaneSame l s (issueMore l s) := by
  have hmore : issueMore l s = grantBuffers 12 s := congrArg (grantBuffers 12) (issueAlone_of_false h.alone 4)
  rw [hmore]
  exact laneSame_grantBuffers 12 hs h

end Sys2Proof.Safety
end

section
/-! PROOFS. The end of a stroke (R108 to R112, R157): the strokes completed in order, the arming sweep, the barrier and the end tests. -/

namespace Sys2Proof.Safety

open Sys2Proof.Machine

/-! ## The report of an arming stroke (R157) -/

section Arming

variable {s : State} {e : TableEntry} {o : PoolOrder} {g : Generator}

theorem armingReport_ignored {i : StrokeId} {x : RegionId} (h : armedBy s { lane := i.lane, seq := i.seq } x = false) : armingReport i x s = s :=
  if_neg (by simp [h])

theorem armingReport_counts {i : StrokeId} {x : RegionId} (h : armedBy s { lane := i.lane, seq := i.seq } x = true)
    (hsweep : s.regions[x].sweep + 1 < 65536) :
    armingReport i x s = setRegion x { s.regions[x] with sweep := s.regions[x].sweep + 1 } s := (if_pos h).trans (if_pos hsweep)

/-- The last stroke of a region's sweep: the region is KEPT and DONE goes up by its bytes. -/
def regionKept (l : Lane) (x : RegionId) (s : State) : State :=
  updateLane l (fun o => { o with done := o.done + 4194304 }) id (setRegion x { state := .kept, owner := none, sweep := 0 } s)

theorem regionKept_laneStep {l : Lane} (he : laneEntry s l = some e) (ho : slotOrder s e.slot = some o) (x : RegionId) :
    LaneStep s (regionKept l x s) l e e o { o with done := o.done + 4194304 } := by
  have hstep : LaneStep (setRegion x { state := .kept, owner := none, sweep := 0 } s) (regionKept l x s) l e e o
      { o with done := o.done + 4194304 } :=
    updateLane_laneStep (f := fun o => { o with done := o.done + 4194304 }) (g := id)
      (s := setRegion x { state := .kept, owner := none, sweep := 0 } s) he ho rfl rfl fun h => h
  exact ⟨he, ho, hstep.slots, hstep.table, hstep.queues, hstep.slot, hstep.same, hstep.life⟩

theorem regionKept_side (l : Lane) (x : RegionId) (s : State) :
    (regionKept l x s).strokes = s.strokes ∧ (regionKept l x s).channel = s.channel
      ∧ (regionKept l x s).regions = s.regions.set x { state := .kept, owner := none, sweep := 0 } := by
  simp [regionKept, setRegion]

theorem armingReport_keeps {i : StrokeId} {x : RegionId} (he : laneEntry s i.lane = some e) (ho : slotOrder s e.slot = some o)
    (hg : s.strokes.generators[i.lane] = some g) (h : armedBy s { lane := i.lane, seq := i.seq } x = true)
    (hsweep : 65536 ≤ s.regions[x].sweep + 1) : armingReport i x s =
      if g.armingList.length * 4194304 ≤ o.done + 4194304 then
        orderComplete i.lane { outcome := .ok, reason := 0, corrected := 0, done := o.done + 4194304 } (regionKept i.lane x s)
      else regionKept i.lane x s := by
  have horder : laneOrder (regionKept i.lane x s) i.lane = some { o with done := o.done + 4194304 } := (regionKept_laneStep he ho x).order_same
  obtain ⟨hstrokes, -⟩ := regionKept_side i.lane x s
  have hgen : (regionKept i.lane x s).strokes.generators[i.lane] = some g := by rw [hstrokes]; exact hg
  have hreport : armingReport i x s = match (regionKept i.lane x s).strokes.generators[i.lane], laneOrder (regionKept i.lane x s) i.lane with
      | some g, some o =>
        if g.armingList.length * Config.regionBytes ≤ o.done then
          orderComplete i.lane { outcome := .ok, reason := 0, corrected := 0, done := o.done } (regionKept i.lane x s)
        else regionKept i.lane x s
      | _, _ => regionKept i.lane x s :=
    (if_pos h).trans ((if_neg (Nat.not_lt.mpr (show Config.sweepStrokes ≤ _ from hsweep))).trans (by rfl))
  rw [hreport, hgen, horder]
  rfl

theorem armingReport_keeps_regions {i : StrokeId} {x : RegionId} (he : laneEntry s i.lane = some e) (ho : slotOrder s e.slot = some o)
    (hg : s.strokes.generators[i.lane] = some g) (h : armedBy s { lane := i.lane, seq := i.seq } x = true)
    (hsweep : 65536 ≤ s.regions[x].sweep + 1) :
    (armingReport i x s).regions = s.regions.set x { state := .kept, owner := none, sweep := 0 } := by
  obtain ⟨-, -, hregions⟩ := regionKept_side i.lane x s
  rw [armingReport_keeps he ho hg h hsweep, ← hregions]
  split
  · simp
  · rfl

theorem orderComplete_running {l : Lane} (ho : laneOrder s l = some o) (hlife : o.life = .running) (r : OrderResult) :
    orderComplete l r s = toReporting l r s := by
  refine if_pos ?_
  rw [laneLife, ho]
  simp [hlife]

end Arming

/-! ## The clauses of the statement -/

theorem enterPrefix_cases (g : Generator) (i : Nat) :
    (i = g.prefixLen → i < (enterPrefix i g).prefixLen ∧ (∀ j, i < j → j < (enterPrefix i g).prefixLen → j ∈ g.ahead)
        ∧ (enterPrefix i g).prefixLen ∉ (enterPrefix i g).ahead
        ∧ ∀ j, (enterPrefix i g).prefixLen ≤ j → (j ∈ (enterPrefix i g).ahead ↔ j ∈ g.ahead))
    ∧ (g.prefixLen < i → (∀ b, g.barrier = some b → i < b) → enterPrefix i g = { g with ahead := g.ahead ++ [i] })
    ∧ (∀ b, g.prefixLen < i → g.barrier = some b → b ≤ i → enterPrefix i g = g) := by
  refine ⟨fun hi => ?_, enterPrefix_ahead, fun b => enterPrefix_above⟩
  rw [enterPrefix_at hi]
  exact passAhead_spec g.ahead.length (i + 1) g.ahead (Nat.le_refl _)

section Ends

variable {s : State} {r : StrokeRecord} {e : TableEntry} {o : PoolOrder} {g : Generator}

theorem strokeCompletes_data_effect (he : laneEntry s r.id.lane = some e) (ho : slotOrder s e.slot = some o) (hseq : o.seq = r.id.seq)
    (hg : s.strokes.generators[r.id.lane] = some g) (hdata : g.armingList = []) (hkind : r.kind ≠ .arming) :
    (strokeCompletes r s).strokes.records = s.strokes.records.filter (fun x => x.id ≠ r.id)
      ∧ (∀ b, r.buffer = some b → (strokeCompletes r s).strokes.buffers = s.strokes.buffers.set b none)
      ∧ slotOrder (strokeCompletes r s) e.slot = some { o with
          corrected := min (o.corrected + r.corrected) 65535, done := 64 * (enterPrefix r.id.index g).prefixLen }
      ∧ (strokeCompletes r s).strokes.generators[r.id.lane] = some (enterPrefix r.id.index g)
      ∧ SamePort s (strokeCompletes r s) ∧ (strokeCompletes r s).intake = s.intake ∧ (strokeCompletes r s).channel = s.channel
      ∧ SameArraySide s (strokeCompletes r s) := by
  have hstep := completedRecord_laneStep (r := r) he ho
  have hgen := completedRecord_generator hg
  obtain ⟨hport, hintake, hchannel, hside⟩ := completedRecord_side r s
  have hcopy := copyDone_data hgen (by rw [enterPrefix_armingList, hdata])
  have hdone : slotOrder (copyDone r.id.lane (completedRecord r s)) e.slot = some { o with
      corrected := min (o.corrected + r.corrected) 65535, done := 64 * (enterPrefix r.id.index g).prefixLen } := by
    rw [hcopy]
    exact (updateLane_laneStep (f := fun o => { o with done := 64 * (enterPrefix r.id.index g).prefixLen }) (g := id)
      hstep.entry_same hstep.slot_same rfl rfl fun h => h).slot_same
  rw [strokeCompletes_data ((laneOrder_of_entry he).trans ho) hseq hkind]
  refine ⟨?_, fun b hb => ?_, hdone, ?_, by simpa [SamePort] using hport, by simpa using hintake, by simpa using hchannel,
    by simpa [SameArraySide] using hside⟩
  · rw [← completedRecord_records]
    simp
  · rw [← completedRecord_buffers hb]
    simp
  · rw [hcopy]
    simp only [updateLane_frame]
    exact hgen

/-- A failed stroke of a RUNNING order with nothing else in flight: the order reports once the others have issued (R109 5, 6). -/
theorem strokeFailed_last (he : laneEntry s r.id.lane = some e) (ho : slotOrder s e.slot = some o) (hseq : o.seq = r.id.seq)
    (hg : s.strokes.generators[r.id.lane] = some g) (hlife : o.life = .running) (hlive : s.engine.state ≠ .halted)
    (hramp : rampOf s { lane := r.id.lane, seq := o.seq } = false) (hlast : ∀ x ∈ s.strokes.records, x.id.lane = r.id.lane → x.id = r.id)
    (hs : OrdersPlaced s) (c : StopCause) :
    slotOrder (strokeFailed r c s) e.slot = some { o with life := .reporting, stopCause := some c, outcome := some c.outcome, reason := 0 }
      ∧ (strokeFailed r c s).channel.queue = (issueMore r.id.lane (strokeFails r c s)).channel.queue ++ [.result e.slot]
      ∧ (strokeFailed r c s).strokes.generators[r.id.lane] = none := by
  have horder := (laneOrder_of_entry he).trans ho
  have hstep := strokeFails_running he ho hseq hlife c
  have hgen : (strokeFails r c s).strokes.generators[r.id.lane] = some { lowerBarrier r.id.index g with issuing := false } := by
    rw [strokeFails_eq horder hseq]
    exact stopOrder_generator (s := failedRecord r s) horder hlife (failedRecord_generator hg) (some c)
  have hnothing : IssuesNothing (strokeFails r c s) r.id.lane := fun x hx => by
    cases hgen.symm.trans hx
    rfl
  have hsame := laneSame_issueMore ((Keeps.after_strokeFails r c s).placed hs) hnothing
  have hframe : (issueMore r.id.lane (strokeFails r c s)).domains = s.domains ∧ (issueMore r.id.lane (strokeFails r c s)).engine = s.engine := by
    simp
  obtain ⟨hdomains, hengine⟩ := hframe
  have hflight : inFlight (strokeFails r c s) r.id.lane = 0 := by
    rw [inFlight_eq_countP, strokeFails_records horder hseq, List.countP_eq_zero]
    intro x hx
    obtain ⟨hmem, hne⟩ := List.mem_filter.mp hx
    have hne : x.id ≠ r.id := by simpa using hne
    exact fun hlane => hne (hlast x hmem (beq_iff_eq.mp hlane))
  rw [strokeFailed]
  generalize issueMore r.id.lane (strokeFails r c s) = y at hsame hdomains hengine ⊢
  have hye := hsame.entry.trans hstep.entry_same
  have hyo := hsame.order.trans hstep.order_same
  have hyslot := (laneOrder_of_entry hye).symm.trans hyo
  have hyflight : laneInFlight y r.id.lane = false := by
    rw [laneInFlight_of_order hyo, hsame.flight, hflight, rampOf, hdomains]
    exact hramp
  rw [endTests, dataCompleteTest_stays hyo (hsame.generator.trans hgen) (.inl (by simp)),
    endTest_reports hyo rfl rfl (by rwa [hengine]) hyflight]
  refine ⟨(toReporting_laneStep hye hyslot _).slot_same, ?_, toReporting_generator hye _⟩
  rw [toReporting_eq hye]
  simp [placeRequest]

theorem strokeFails_effect (he : laneEntry s r.id.lane = some e) (ho : slotOrder s e.slot = some o) (hseq : o.seq = r.id.seq)
    (hg : s.strokes.generators[r.id.lane] = some g) (c : StopCause) :
    (strokeFails r c s).strokes.records = s.strokes.records.filter (fun x => x.id ≠ r.id)
      ∧ (∀ b, r.buffer = some b → (strokeFails r c s).strokes.buffers = s.strokes.buffers.set b none)
      ∧ (o.life = .running →
          slotOrder (strokeFails r c s) e.slot = some { o with life := .stopping, stopCause := some c }
          ∧ ∃ g', (strokeFails r c s).strokes.generators[r.id.lane] = some g' ∧ g'.issuing = false ∧ g'.prefixLen = g.prefixLen
            ∧ ∃ b, g'.barrier = some b ∧ b ≤ r.id.index ∧ (b = r.id.index ∨ g.barrier = some b))
      ∧ (o.life = .stopping → slotOrder (strokeFails r c s) e.slot = some o
          ∧ ∃ g', (strokeFails r c s).strokes.generators[r.id.lane] = some g' ∧ g'.prefixLen = g.prefixLen
            ∧ ∃ b, g'.barrier = some b ∧ b ≤ r.id.index ∧ (b = r.id.index ∨ g.barrier = some b)) := by
  have horder := (laneOrder_of_entry he).trans ho
  obtain ⟨hprefix, hbarrier⟩ := lowerBarrier_spec r.id.index g
  refine ⟨strokeFails_records horder hseq c, fun b hb => strokeFails_buffers horder hseq hb c, fun hlife => ?_, fun hlife => ?_⟩
  · refine ⟨(strokeFails_running he ho hseq hlife c).slot_same, { lowerBarrier r.id.index g with issuing := false }, ?_, rfl, hprefix, hbarrier⟩
    rw [strokeFails_eq horder hseq]
    exact stopOrder_generator (s := failedRecord r s) horder hlife (failedRecord_generator hg) (some c)
  · have hstays : stopOrder r.id.lane (some c) (failedRecord r s) = failedRecord r s :=
      stopOrder_of_not_running (s := failedRecord r s) (fun x hx hrunning => by
        have hx : laneOrder s r.id.lane = some x := hx
        cases horder.symm.trans hx
        exact absurd (hlife.symm.trans hrunning) (by decide)) (some c)
    rw [strokeFails_eq horder hseq, hstays]
    exact ⟨ho, _, failedRecord_generator hg, hprefix, hbarrier⟩

/-- What a completed arming stroke comes to, by the region it swept (R157). -/
theorem strokeCompletes_arming_effect {x : RegionId} {n : OrderName} {p : PoolOrder} (he : laneEntry s r.id.lane = some e)
    (ho : slotOrder s e.slot = some o) (hseq : o.seq = r.id.seq) (hg : s.strokes.generators[r.id.lane] = some g) (harming : g.armingList ≠ [])
    (hkind : r.kind = .arming) (hx : x = addrRegion r.place) (hn : n = { lane := r.id.lane, seq := o.seq })
    (hp : p = { o with corrected := min (o.corrected + r.corrected) 65535 }) :
    (∀ y : RegionId, y ≠ x → (strokeCompletes r s).regions[y] = s.regions[y])
      ∧ (s.regions[x].state ≠ .arming ∨ s.regions[x].owner ≠ some n →
          (strokeCompletes r s).regions[x] = s.regions[x] ∧ slotOrder (strokeCompletes r s) e.slot = some p
          ∧ (strokeCompletes r s).strokes.generators[r.id.lane] = some (enterPrefix r.id.index g) ∧ (strokeCompletes r s).channel = s.channel)
      ∧ (s.regions[x].state = .arming → s.regions[x].owner = some n → s.regions[x].sweep + 1 < 65536 →
          (strokeCompletes r s).regions[x] = { state := .arming, owner := some n, sweep := s.regions[x].sweep + 1 }
          ∧ slotOrder (strokeCompletes r s) e.slot = some p
          ∧ (strokeCompletes r s).strokes.generators[r.id.lane] = some (enterPrefix r.id.index g) ∧ (strokeCompletes r s).channel = s.channel)
      ∧ (s.regions[x].state = .arming → s.regions[x].owner = some n → 65536 ≤ s.regions[x].sweep + 1 →
          (strokeCompletes r s).regions[x] = { state := .kept, owner := none, sweep := 0 }
          ∧ (o.done + 4194304 < 4194304 * g.armingList.length →
              slotOrder (strokeCompletes r s) e.slot = some { p with done := o.done + 4194304 }
              ∧ (strokeCompletes r s).strokes.generators[r.id.lane] = some (enterPrefix r.id.index g) ∧ (strokeCompletes r s).channel = s.channel)
          ∧ (4194304 * g.armingList.length ≤ o.done + 4194304 → o.life = .running →
              Reports (strokeCompletes r s) e.slot o .ok 0 0 (o.done + 4194304) ∧ (strokeCompletes r s).strokes.generators[r.id.lane] = none)) := by
  have horder := (laneOrder_of_entry he).trans ho
  have hstep := completedRecord_laneStep (r := r) he ho
  have hgen := completedRecord_generator hg
  obtain ⟨-, -, hchannel, -, -, hregions, -, -⟩ := completedRecord_side r s
  rw [strokeCompletes_arming horder hseq hkind, copyDone_arming hgen (by rwa [enterPrefix_armingList]), ← hx]
  have hname : ({ lane := r.id.lane, seq := r.id.seq } : OrderName) = n := by rw [hn, hseq]
  have harmed : armedBy (completedRecord r s) { lane := r.id.lane, seq := r.id.seq } x = true ↔
      s.regions[x].state = .arming ∧ s.regions[x].owner = some n := by
    rw [armedBy_iff, hregions, hname]
  rw [← hp] at hstep
  have hpo : p.done = o.done ∧ p.life = o.life := by rw [hp]; exact ⟨rfl, rfl⟩
  obtain ⟨hpdone, hplife⟩ := hpo
  have hprefix := enterPrefix_armingList r.id.index g
  generalize completedRecord r s = v at hstep hgen hchannel hregions harmed ⊢
  have hset (y : RegionId) (hy : y ≠ x) (a : Region) : (v.regions.set x a)[y] = s.regions[y] := by
    rw [getElem_set_other _ _ _ _ hy, hregions]
  by_cases hown : s.regions[x].state = .arming ∧ s.regions[x].owner = some n
  · obtain ⟨hstate, howner⟩ := hown
    have hby := harmed.mpr ⟨hstate, howner⟩
    refine ⟨fun y hy => ?_, fun h => h.elim (absurd hstate) (absurd howner), fun _ _ hsweep => ?_, fun _ _ hsweep => ?_⟩
    · by_cases hsweep : v.regions[x].sweep + 1 < 65536
      · rw [armingReport_counts hby hsweep]
        exact hset y hy _
      · rw [armingReport_keeps_regions hstep.entry_same hstep.slot_same hgen hby (Nat.not_lt.mp hsweep)]
        exact hset y hy _
    · rw [armingReport_counts hby (by rwa [hregions])]
      refine ⟨?_, hstep.slot_same, hgen, hchannel⟩
      rw [setRegion]
      exact (getElem_set_same _ _ _).trans (by rw [hregions]; dsimp only; rw [hstate, howner])
    · obtain ⟨hkstrokes, hkchannel, -⟩ := regionKept_side r.id.lane x v
      have hsweep : 65536 ≤ v.regions[x].sweep + 1 := by rwa [hregions]
      have hkept := regionKept_laneStep hstep.entry_same hstep.slot_same x
      refine ⟨?_, ?_⟩
      · rw [armingReport_keeps_regions hstep.entry_same hstep.slot_same hgen hby hsweep, getElem_set_same]
      rw [armingReport_keeps hstep.entry_same hstep.slot_same hgen hby hsweep, hprefix, hpdone]
      refine ⟨fun hmore => ?_, fun hlast hlife => ?_⟩
      · rw [if_neg (by omega)]
        exact ⟨by rw [hkept.slot_same, hpdone], by rw [hkstrokes]; exact hgen, hkchannel.trans hchannel⟩
      · rw [if_pos (by omega), orderComplete_running hkept.order_same (hplife.trans hlife)]
        refine ⟨?_, toReporting_generator hkept.entry_same _⟩
        have hreports := toReporting_reports hkept.entry_same hkept.slot_same
          { outcome := .ok, reason := 0, corrected := 0, done := o.done + 4194304 }
        subst hp
        exact hreports
  · have hignored := armingReport_ignored (Bool.eq_false_iff.mpr fun h => hown (harmed.mp h))
    rw [hignored]
    exact ⟨fun y _ => by rw [hregions], fun _ => ⟨by rw [hregions], hstep.slot_same, hgen, hchannel⟩,
      fun hstate howner => absurd ⟨hstate, howner⟩ hown, fun hstate howner => absurd ⟨hstate, howner⟩ hown⟩

/-- What the end tests of a lane come to (R83, R85, R111, R112). -/
theorem endTests_effect {l : Lane} (he : laneEntry s l = some e) (ho : slotOrder s e.slot = some o) (hg : s.strokes.generators[l] = some g) :
    (o.life = .running → g.armingList ≠ [] ∨ g.prefixLen ≠ g.strokeCount → endTests l s = s)
    ∧ (o.life = .running → g.armingList = [] → g.prefixLen = g.strokeCount → ∀ u, u = endTests l s →
        Reports u e.slot o (if o.corrected = 0 then .ok else .okCorrected) 0 o.corrected o.done
        ∧ u.strokes.generators[l] = none ∧ SamePort s u ∧ SameArraySide s u)
    ∧ (o.life = .stopping → (s.engine.state = .halted ∨ o.stopCause = none ∨ laneInFlight s l = true) → endTests l s = s)
    ∧ ∀ c, o.life = .stopping → s.engine.state ≠ .halted → o.stopCause = some c → laneInFlight s l = false → ∀ u, u = endTests l s →
        Reports u e.slot o c.outcome 0 o.corrected o.done
        ∧ u.strokes.generators[l] = none ∧ SamePort s u ∧ SameArraySide s u := by
  have horder := (laneOrder_of_entry he).trans ho
  refine ⟨fun hlife hopen => ?_, fun hlife harming hprefix u hu => ?_, fun hlife hheld => ?_, fun c hlife hlive hcause hnone u hu => ?_⟩
  · rw [endTests, dataCompleteTest_stays horder hg (.inr hopen), endTest_of_life horder (by simp [hlife])]
  · have hstep := toReporting_laneStep he ho (dataResult o)
    subst hu
    rw [endTests, dataCompleteTest_reports horder hg hlife harming hprefix, endTest_of_life hstep.order_same (by simp [reportSlot])]
    exact ⟨toReporting_reports he ho _, toReporting_generator he _, samePort_toReporting _ _ _, sameArraySide_toReporting _ _ _⟩
  · rw [endTests, dataCompleteTest_stays horder hg (.inl (by simp [hlife])), endTest_stays fun x hx => ?_]
    cases horder.symm.trans hx
    exact .inr hheld
  · subst hu
    rw [endTests, dataCompleteTest_stays horder hg (.inl (by simp [hlife])), endTest_reports horder hlife hcause hlive hnone]
    exact ⟨toReporting_reports he ho _, toReporting_generator he _, samePort_toReporting _ _ _, sameArraySide_toReporting _ _ _⟩

end Ends

/-- Settles O42: what the end of a stroke does to its order, its generator and the region it swept. -/
theorem strokeEndsMoveThePrefix : Obligations.StrokeEndsMoveThePrefix := by
  refine ⟨enterPrefix_cases, fun s r => ⟨rfl, fun c => rfl⟩, fun s r e o g he ho hseq hg hdata hkind => ⟨fun u hu => ?_, fun c u hu => ?_⟩,
    fun s r e o p g x n he ho hseq hg harming hkind hx hn hp u hu => ?_, fun s l e o g he ho hg => endTests_effect he ho hg⟩
  · subst hu
    exact strokeCompletes_data_effect he ho hseq hg hdata hkind
  · subst hu
    obtain ⟨hrecords, hbuffers, hrunning, hstopping⟩ := strokeFails_effect he ho hseq hg c
    refine ⟨hrecords, hbuffers, hrunning, hstopping, fun hlife hlive hramp hlast hs w hw => ?_,
      strokeFails_side ((laneOrder_of_entry he).trans ho) hseq c⟩
    subst hw
    exact strokeFailed_last he ho hseq hg hlife hlive hramp hlast hs c
  · subst hu
    refine ⟨?_, by simp [SamePort], by simp, by simp, by simp, by simp, by simp, by simp, by simp,
      strokeCompletes_arming_effect he ho hseq hg harming hkind hx hn hp⟩
    rw [strokeCompletes_arming ((laneOrder_of_entry he).trans ho) hseq hkind, ← completedRecord_records]
    simp

end Sys2Proof.Safety
end

section
/-! PROOFS. The operations of a bank complete (R115, R118, R123, R126, R127, R137) and the temperature class changes (R145 to R147). -/

namespace Sys2Proof.Safety

open Sys2Proof.Machine

/-! ## The turn of the row groups (R115) -/

theorem ascending_turns : ([1, 2, 3, 4, 5, 6, 7] : List (Fin 8)).Pairwise fun p q => p.val < q.val := by decide

theorem mem_turns (j : Fin 8) (hj : j ≠ 0) : j ∈ ([1, 2, 3, 4, 5, 6, 7] : List (Fin 8)) := by
  revert j
  decide

theorem turns_pos : ∀ j ∈ ([1, 2, 3, 4, 5, 6, 7] : List (Fin 8)), 1 ≤ j.val := by decide

theorem nextGroup_here {retained : Fin 8 → Bool} {last : Option RowGroup} (h : retained (groupSegment (turnStart last)) = true) :
    nextGroup retained last = some (turnStart last) := if_pos h

theorem nextGroup_onward {retained : Fin 8 → Bool} {last : Option RowGroup} (h : retained (groupSegment (turnStart last)) = false) :
    nextGroup retained last =
      (([1, 2, 3, 4, 5, 6, 7] : List (Fin 8)).find? fun j => retained (groupSegment (turnStart last) + j)).map fun j =>
        firstGroup (groupSegment (turnStart last) + j) := if_neg (by simp [h])

theorem groupSegment_val (g : RowGroup) : (groupSegment g).val = g.val / 128 := rfl

theorem segment_eq_of_sub_eq_zero {i j : Fin 8} (h : i - j = 0) : i = j := by
  revert i j
  decide

theorem segment_add_sub_cancel (i j : Fin 8) : i + (j - i) = j := by
  revert i j
  decide

/-- No row group is due exactly where no segment is retained. -/
theorem nextGroup_eq_none_iff (retained : Fin 8 → Bool) (last : Option RowGroup) : nextGroup retained last = none ↔ ∀ g, retained g = false := by
  cases h : retained (groupSegment (turnStart last)) with
  | true =>
    rw [nextGroup_here h]
    exact ⟨fun hnone => absurd hnone (by simp), fun hall => absurd (h.symm.trans (hall _)) (by decide)⟩
  | false =>
    rw [nextGroup_onward h, Option.map_eq_none_iff, List.find?_eq_none]
    refine ⟨fun hall g => ?_, fun hall j _ => by simp [hall]⟩
    by_cases hj : g - groupSegment (turnStart last) = 0
    · rw [segment_eq_of_sub_eq_zero hj, h]
    · have hg := hall _ (mem_turns _ hj)
      rw [segment_add_sub_cancel] at hg
      exact Bool.eq_false_iff.mpr hg

/-- How far a row group lies from the start of the turn. -/
theorem turn_distance (g start : RowGroup) : (g - start).val = (g.val + 1024 - start.val) % 1024 := by
  rw [Fin.sub_def]
  simp only
  have hg := g.isLt
  have hstart := start.isLt
  omega

/-- The group taken is the first of a retained segment from the start of the turn on. -/
theorem nextGroup_first {retained : Fin 8 → Bool} {last : Option RowGroup} {g h : RowGroup} (hg : nextGroup retained last = some g)
    (hh : retained (groupSegment h) = true) : (g - turnStart last).val ≤ (h - turnStart last).val := by
  generalize hstart : turnStart last = start
  cases hhere : retained (groupSegment (turnStart last)) with
  | true =>
    cases (nextGroup_here hhere).symm.trans hg
    rw [hstart, Fin.sub_self]
    exact Nat.zero_le _
  | false =>
    rw [nextGroup_onward hhere, hstart] at hg
    rw [hstart] at hhere
    obtain ⟨j, hj, rfl⟩ := Option.map_eq_some_iff.mp hg
    obtain ⟨hmem, -, hleast⟩ := (find?_ascending_iff (key := fun j : Fin 8 => j.val) ascending_turns _ j).mp hj
    have hone := turns_pos j hmem
    have hturn : groupSegment h - groupSegment start ≠ 0 := fun h0 => by
      rw [segment_eq_of_sub_eq_zero h0, hhere] at hh
      exact absurd hh (by decide)
    have hle := hleast _ (mem_turns _ hturn) (by rw [segment_add_sub_cancel]; exact hh)
    have hsub : (groupSegment h - groupSegment start).val = (h.val / 128 + 8 - start.val / 128) % 8 := by
      rw [Fin.sub_def]
      simp only [groupSegment_val]
      have hb := h.isLt
      have hstart := start.isLt
      omega
    have hadd : (firstGroup (groupSegment start + j)).val = (start.val / 128 + j.val) % 8 * 128 := rfl
    have hpos : (groupSegment h - groupSegment start).val ≠ 0 := fun h0 => hturn (Fin.ext h0)
    rw [turn_distance, turn_distance, hadd]
    rw [hsub] at hle hpos
    have hb := h.isLt
    have hs := start.isLt
    have hj := j.isLt
    omega

theorem retainedCount_eq_zero_iff (s : State) (b : BankId) : retainedCount s b = 0 ↔ ∀ g, (regionState s (regionOf b g)).retained = false := by
  rw [retainedCount, List.countP_eq_zero]
  exact ⟨fun h g => Bool.eq_false_iff.mpr (h g (List.mem_finRange g)), fun h g _ => by simp [h g]⟩

/-- An IDLE bank that refreshes takes the group due. -/
theorem rowGroup_of_refresh {s : State} {b : BankId} (hidle : s.banks[b].state = .idle) (h : (bankDecide b s).banks[b].state = .refreshing) :
    (bankDecide b s).banks[b].rowGroup = groupDue s b := by
  have hbank : (bankDecide b s).banks[b] = decide1 (indication s b) (groupDue s b) s.banks[b] := getElem_set_same _ _ _
  rw [hbank] at h ⊢
  unfold decide1 at h ⊢
  split
  · rename_i hheld
    rw [if_pos hheld, hidle] at h
    exact absurd h (by decide)
  · rename_i hfree
    rw [if_neg hfree] at h
    simp only [hidle] at h ⊢
    unfold decideIdle at h ⊢
    split
    · rfl
    · rename_i hlevel
      rw [if_neg hlevel] at h
      split
      · rename_i q hq
        rw [hq] at h
        exact absurd h (by simp [startOpen])
      · rename_i hnone
        rw [hnone] at h
        split
        · rfl
        · rename_i hpull
          simp only [hpull, Bool.false_eq_true, if_false] at h
          exact absurd (hidle.symm.trans h) (by decide)

/-! ## Banks that come to rest (R118, R126, R127) -/

theorem restOrDecide_decides {s : State} {b : BankId} (hhold : s.banks[b].sleepHold = false) (hstand : s.banks[b].standDown = false) :
    restOrDecide b s = bankDecide b s := by
  rw [restOrDecide, hhold, hstand]
  rfl

/-- The served request once a bank has reported stood down. -/
def stoodDown (b : BankId) (v : Served) : Served :=
  { v with lowerDown := v.lowerDown || b == lowerBank v.domain, upperDown := v.upperDown || b == upperBank v.domain }

/-- The report of a stood-down bank of the served domain (R126, R170). -/
theorem reportStoodDown_of_served {s : State} {b : BankId} {v : Served} (hserving : s.domains.serving = some v)
    (hphase : v.phase = .standingDown) (hdomain : bankDomain b = v.domain) :
    reportStoodDown b s = drainTest { s with domains := { s.domains with serving := some (stoodDown b v) } } := by
  have hreport : (if b == lowerBank v.domain then { v with lowerDown := true } else { v with upperDown := true }) = stoodDown b v := by
    by_cases hlower : b = lowerBank v.domain
    · have hupper : b ≠ upperBank v.domain := hlower ▸ lowerBank_ne_upperBank v.domain
      rw [if_pos (beq_iff_eq.mpr hlower), stoodDown, beq_iff_eq.mpr hlower, beq_eq_false_iff_ne.mpr hupper, Bool.or_true, Bool.or_false]
    · have hupper := eq_upperBank hdomain hlower
      rw [if_neg (by simpa using hlower), stoodDown, beq_iff_eq.mpr hupper, beq_eq_false_iff_ne.mpr hlower, Bool.or_true, Bool.or_false]
  rw [reportStoodDown, hserving]
  dsimp only
  rw [if_pos (by simp [hphase, hdomain]), hreport]

/-- The bank and its Refresh Unit once it is ASLEEP (R127, R143). -/
theorem enterAsleep_eq (b : BankId) (v : State) : enterAsleep b v =
    if v.banks[b].standDown then reportStoodDown b (sleepEntryTest { v with
        banks := v.banks.set b { v.banks[b] with state := .asleep, openRow := none, streak := 0, sleepHold := false }
        refresh := { v.refresh with banks := v.refresh.banks.set b { v.refresh.banks[b] with account := 0, timer := none, void := false } } })
    else sleepEntryTest { v with
        banks := v.banks.set b { v.banks[b] with state := .asleep, openRow := none, streak := 0, sleepHold := false }
        refresh := { v.refresh with banks := v.refresh.banks.set b { v.refresh.banks[b] with account := 0, timer := none, void := false } } } := rfl

theorem restOrDecide_sleeps {s : State} {b : BankId} (hhold : s.banks[b].sleepHold = true) : restOrDecide b s = enterAsleep b s := if_pos hhold

theorem restOrDecide_standsDown {s : State} {b : BankId} (hhold : s.banks[b].sleepHold = false) (hstand : s.banks[b].standDown = true) :
    restOrDecide b s = reportStoodDown b s := (if_neg (by rw [hhold]; decide)).trans (if_pos hstand)

/-! ## Completions -/

theorem closeOrDecide_closes {s : State} {b : BankId} (h : s.banks[b].sleepHold = true ∨ s.banks[b].standDown = true)
    (hopen : s.banks[b].state = .opened) :
    closeOrDecide b s = { s with banks := s.banks.set b { s.banks[b] with state := .closing } } := by
  refine (if_pos (by simpa using h)).trans (if_pos ?_)
  rw [hopen]
  rfl

theorem closeOrDecide_decides {s : State} {b : BankId} (hhold : s.banks[b].sleepHold = false) (hstand : s.banks[b].standDown = false) :
    closeOrDecide b s = bankDecide b s := by
  rw [closeOrDecide, hhold, hstand]
  rfl

theorem accountRefreshed_spec (r : RefreshBank) : (accountRefreshed r).k = r.k ∧ (accountRefreshed r).timer = r.timer
    ∧ (accountRefreshed r).void = false ∧ (accountRefreshed r).interval = r.interval
    ∧ (r.void = true → (accountRefreshed r).account = r.account)
    ∧ (r.void = false → 0 < r.k → -8 < r.account → (accountRefreshed r).account = r.account - 1)
    ∧ (r.void = false → (r.k = 0 ∨ r.account ≤ -8) → (accountRefreshed r).account = r.account) := by
  cases hvoid : r.void with
  | true =>
    have heq : accountRefreshed r = { r with void := false } := if_pos hvoid
    rw [heq]
    exact ⟨rfl, rfl, rfl, rfl, fun _ => rfl, fun h => absurd h (by decide), fun h => absurd h (by decide)⟩
  | false =>
    by_cases hcount : 0 < r.k ∧ -8 < r.account
    · have heq : accountRefreshed r = { r with account := r.account - 1 } := (if_neg (by simp [hvoid])).trans (if_pos hcount)
      rw [heq]
      exact ⟨rfl, rfl, hvoid, rfl, fun h => absurd h (by decide), fun _ _ _ => rfl, fun _ h => by omega⟩
    · have heq : accountRefreshed r = r := (if_neg (by simp [hvoid])).trans (if_neg hcount)
      rw [heq]
      exact ⟨rfl, rfl, hvoid, rfl, fun h => absurd h (by decide), fun _ hk ha => absurd ⟨hk, ha⟩ hcount, fun _ _ => rfl⟩

/-- Settles O46: the completions of a bank's operations and the row group a refresh takes. -/
theorem bankOperationsComplete : Obligations.BankOperationsComplete := by
  refine ⟨fun b g row hrow => ?_, fun s t b start hstart hexec hidle hrefresh => ?_, fun s b => ⟨fun h => ?_, fun h => ?_, fun h => ?_, fun fresh h => ?_⟩,
    fun s b hopen => ⟨fun hheld => ?_, fun hhold hstand => ?_⟩, fun s b hclose => ?_, fun s b hrefresh => ?_,
    fun v b => ⟨fun hhold hstand => ?_, fun hhold hstand => ?_, fun served hhold hstand hserving hphase hdomain => ?_,
      fun served hhold hstand hserving hphase hdomain => ?_⟩⟩
  · apply Fin.ext
    have hsegment : (addrSegment (placeAddress b row 0)).val = (row.toNat * 16384 + b.val * 2048 + 0 * 64) / 33554432 % 8 := rfl
    have hlt := row.isLt
    have hb := b.isLt
    rw [hsegment, groupSegment_val]
    omega
  · have hstart : start = turnStart s.banks[b].rowGroup := by
      rw [hstart]
      cases s.banks[b].rowGroup <;> rfl
    have ht : bankDecide b s = t := Host.Outcome.next.inj hexec
    subst ht
    rw [rowGroup_of_refresh hidle hrefresh]
    refine ⟨groupDue_inRetainedSegment s b, ?_, fun g h hg hh => ?_⟩
    · rw [groupDue, nextGroup_eq_none_iff, retainedCount_eq_zero_iff]
    · rw [hstart]
      exact nextGroup_first hg ((RegionState.retained_iff _).mpr (hh h rfl))
  · exact congrArg Host.Outcome.next (if_neg h)
  · exact congrArg Host.Outcome.next (if_neg h)
  · exact congrArg Host.Outcome.next (if_neg h)
  · refine congrArg Host.Outcome.next ?_
    split
    · rename_i q hstate hhand
      obtain h | h := h
      · exact absurd hstate h
      · exact absurd (hhand.symm.trans h) (by simp)
    · rfl
  · have hopened : (setBank b { s.banks[b] with state := .opened } s).banks[b] = { s.banks[b] with state := .opened } := getElem_set_same _ _ _
    refine congrArg Host.Outcome.next ((if_pos hopen).trans ((closeOrDecide_closes (by rw [hopened]; exact hheld) (by rw [hopened])).trans ?_))
    rw [hopened]
    simp [setBank]
  · have hopened : (setBank b { s.banks[b] with state := .opened } s).banks[b] = { s.banks[b] with state := .opened } := getElem_set_same _ _ _
    refine congrArg Host.Outcome.next ((if_pos hopen).trans ?_)
    exact closeOrDecide_decides (by rw [hopened]; exact hhold) (by rw [hopened]; exact hstand)
  · exact congrArg Host.Outcome.next (if_pos hclose)
  · obtain ⟨hk, htimer, hvoid, hinterval, haccount⟩ := accountRefreshed_spec s.refresh.banks[b]
    obtain ⟨hvoided, hmoved, hstill⟩ := haccount
    exact ⟨accountRefreshed s.refresh.banks[b], hk, htimer, hvoid, hinterval, hvoided, hmoved, hstill, congrArg Host.Outcome.next (if_pos hrefresh)⟩
  · rw [restOrDecide_decides hhold hstand]
    rfl
  · rw [restOrDecide_sleeps hhold, enterAsleep_eq, if_neg (by rw [hstand]; decide)]
  · refine ⟨_, rfl, ?_⟩
    rw [restOrDecide_sleeps hhold, enterAsleep_eq, if_pos hstand, reportStoodDown_of_served (v := served) (by simpa using hserving) hphase hdomain]
    simp [stoodDown]
  · rw [restOrDecide_standsDown hhold hstand, reportStoodDown_of_served hserving hphase hdomain]
    rfl

/-! ## The temperature class (R145 to R147) -/

/-- Settles O50: a sample replaces the temperature class. -/
theorem sampleReplacesTheClass : Obligations.SampleReplacesTheClass := by
  refine ⟨fun s c h => ?_, fun s c htimer hclass => ?_⟩
  · refine congrArg Host.Outcome.next (if_neg fun htaken => ?_)
    simp only [Bool.and_eq_true, bne_iff_ne] at htaken
    obtain ⟨htimer, hclass⟩ := htaken
    exact h.elim (fun h => absurd (htimer.symm.trans h) (by decide)) fun h => hclass h.symm
  · have htaken : (s.refresh.sampleTimer && c != s.refresh.tempClass) = true := by simp [htimer, Ne.symm hclass]
    refine ⟨changeClass c s, congrArg Host.Outcome.next (if_pos htaken), ?_⟩
    generalize hv : ({ s with refresh := { s.refresh with tempClass := c } } : State) = v
    have hchange : changeClass c s = alertIfHot c (requestHeaderUpdate v) := by rw [← hv]; rfl
    have halert : (changeClass c s).port = { s.port with alertPending := s.port.alertPending || c == .hot } := by
      have hport : (requestHeaderUpdate v).port = s.port := by simp [← hv]
      rw [hchange]
      cases c with
      | hot =>
        have hset : alertIfHot .hot (requestHeaderUpdate v) = setAlert (requestHeaderUpdate v) := if_pos rfl
        have hor : (s.port.alertPending || (TempClass.hot == .hot)) = true := Bool.or_true _
        rw [hset, hor]
        exact congrArg (fun p : PortRegs => { p with alertPending := true }) hport
      | normal | warm =>
        rw [alertIfHot, if_neg (by decide), hport]
        exact congrArg (fun a => { s.port with alertPending := a }) (Bool.or_false s.port.alertPending).symm
    have hqueue : (alertIfHot c (requestHeaderUpdate v)).channel = (requestHeaderUpdate v).channel := by simp
    refine ⟨by simp [hchange, ← hv], halert, ?_, fun r hr => ?_, by simp, by simp, by simp, by simp [SameOrders], by simp, by simp, by simp, by simp,
      by simp, ?_, by simp⟩
    · rw [hchange]
      exact (headerAsked_requestHeaderUpdate v).congr (by simp) (by simp)
    · rw [hchange, hqueue]
      exact mem_requestHeaderUpdate (by rw [← hv]; exact hr)
    · rw [hchange, alertIfHot_frame c _ |>.2.2.1, requestHeaderUpdate_reporting, ← hv]

end Sys2Proof.Safety
end

section
/-! PROOFS. An access of a bank completes: what it stores (R100, R102, R104, R107) and where its result goes (R101 to R105, R124). -/

namespace Sys2Proof.Safety

open Sys2Proof.Machine

/-! ## The cells after an access -/

theorem wordDisturbance_writeLine (m : ArrayCells) (a : Nat) (l : Line) (n : Nat) (ha : a + 63 < Config.arrayBytes) (h : Memory.wf m) :
    wordDisturbance (writeLine m a l) n = if a / 8 ≤ n ∧ n < a / 8 + 8 then .clean else wordDisturbance m n := by
  have hbytes := storeBytes_wf m a l ha h
  unfold writeLine
  generalize (List.finRange 64).foldl (fun bs j => cellSet unlistedByte bs (a + j.val) l[j]) m.bytes = bytes at hbytes ⊢
  exact wordDisturbance_setDisturbed _ a _ n ⟨hbytes, h.2⟩

/-- An access changes no byte outside its stroke. -/
theorem accessCells_byte_outside (b : BankId) (q : BankRequest) (fresh : LineDisturbance) {m : ArrayCells} (h : Memory.wf m) {x : Nat}
    (hx : x < requestAddress b q ∨ requestAddress b q + 64 ≤ x) : arrayByte (accessCells b q fresh m) x = arrayByte m x := by
  obtain ⟨l, hl⟩ | ⟨f, hf⟩ := accessCells_cases b q fresh m
  · rw [hl, arrayByte_writeLine m _ l x h, dif_neg (by omega)]
  · rw [hf, arrayByte_setDisturbed]

/-- An access changes no word outside its stroke. -/
theorem accessCells_word_outside (b : BankId) (q : BankRequest) (fresh : LineDisturbance) {m : ArrayCells} (h : Memory.wf m) {n : Nat}
    (hn : n < requestAddress b q / 8 ∨ requestAddress b q / 8 + 8 ≤ n) :
    wordDisturbance (accessCells b q fresh m) n = wordDisturbance m n := by
  obtain ⟨l, hl⟩ | ⟨f, hf⟩ := accessCells_cases b q fresh m
  · have hline : requestAddress b q + 63 < Config.arrayBytes := placeAddress_lt b q.row q.column
    rw [hl, wordDisturbance_writeLine m _ l n hline h, if_neg (by omega)]
  · rw [hf, wordDisturbance_setDisturbed m _ f n h, dif_neg (by omega)]

theorem accessCells_write {q : BankRequest} {data : Line} (hkind : q.kind = .write data) (b : BankId) (fresh : LineDisturbance) (m : ArrayCells) :
    accessCells b q fresh m = writeLine m (requestAddress b q) data := by
  rw [accessCells, hkind]

theorem accessCells_found {q : BankRequest} {b : BankId} {fresh : LineDisturbance} {m : ArrayCells}
    (hkind : q.kind = .read ∨ (q.kind = .scrub ∧ ∀ n, requestClass b q fresh m ≠ .corrected n)) :
    accessCells b q fresh m = setDisturbed m (requestAddress b q) (foundWords m (requestAddress b q) fresh) := by
  obtain hread | ⟨hscrub, hclass⟩ := hkind
  · rw [accessCells, hread]
  · rw [accessCells, hscrub]
    cases hc : requestClass b q fresh m with
    | corrected n => exact absurd hc (hclass n)
    | clean | uncorrectable => rfl

theorem accessCells_corrected {q : BankRequest} {b : BankId} {fresh : LineDisturbance} {m : ArrayCells} {n : Nat} (hkind : q.kind = .scrub)
    (hclass : requestClass b q fresh m = .corrected n) :
    accessCells b q fresh m = setDisturbed m (requestAddress b q) fun _ => .clean := by
  rw [accessCells, hkind]
  simp only [hclass]

/-- A read or a scrub stores no byte. -/
theorem accessCells_bytes_kept {q : BankRequest} (hkind : q.kind = .read ∨ q.kind = .scrub) (b : BankId) (fresh : LineDisturbance)
    (m : ArrayCells) (x : Nat) : arrayByte (accessCells b q fresh m) x = arrayByte m x := by
  by_cases hcorrected : q.kind = .scrub ∧ ∃ n, requestClass b q fresh m = .corrected n
  · obtain ⟨hscrub, n, hclass⟩ := hcorrected
    rw [accessCells_corrected hscrub hclass, arrayByte_setDisturbed]
  · rw [accessCells_found (hkind.imp_right fun hscrub => ⟨hscrub, fun n hclass => hcorrected ⟨hscrub, n, hclass⟩⟩), arrayByte_setDisturbed]

/-- The words of the stroke that an access marks. -/
theorem setDisturbed_word {m : ArrayCells} {a : Nat} (f : Fin 8 → Disturbance) (h : Memory.wf m) (j : Fin 8) :
    wordDisturbance (setDisturbed m a f) (a / 8 + j.val) = f j := by
  rw [wordDisturbance_setDisturbed m a f _ h, dif_pos (by omega)]
  exact congrArg f (Fin.ext (Nat.add_sub_cancel_left _ _))

theorem accessDone_array (b : BankId) (q : BankRequest) (fresh : LineDisturbance) (s : State) :
    (accessDone b q fresh s).array = accessCells b q fresh s.array := by
  simp [accessDone, setBank]

theorem exec_bankAccessComplete {s : State} {b : BankId} {q : BankRequest} (hstate : s.banks[b].state = .accessing)
    (hinHand : s.banks[b].inHand = some q) (fresh : LineDisturbance) :
    exec (.bankAccessComplete b fresh) s = .next (settle s (accessDone b q fresh s)) := by
  refine congrArg Host.Outcome.next ?_
  rw [hstate, hinHand]
  rfl

/-- Settles O47: a completed access stores its stroke and nothing else. -/
theorem accessStoresOnlyItsStroke : Obligations.AccessStoresOnlyItsStroke := by
  intro s b q fresh hstate hinHand hwf
  have hline := placeAddress_lt b q.row q.column
  refine ⟨accessDone b q fresh s, exec_bankAccessComplete hstate hinHand fresh, ?_⟩
  rw [accessDone_array]
  refine ⟨fun x hx => accessCells_byte_outside b q fresh hwf hx, fun n hn => accessCells_word_outside b q fresh hwf hn, fun data hkind => ?_,
    fun hkind j => accessCells_bytes_kept hkind b fresh s.array _, fun hkind j => ?_, fun n hkind hclass j => ?_, ?_, by simp, by simp, by simp⟩
  · rw [accessCells_write hkind]
    refine ⟨fun j => ?_, fun j => ?_⟩
    · have hj := j.isLt
      rw [requestAddress, arrayByte_writeLine _ _ _ _ hwf, dif_pos (by omega)]
      simp only [Nat.add_sub_cancel_left]
      rfl
    · rw [requestAddress, wordDisturbance_writeLine _ _ _ _ hline hwf, if_pos (by omega)]
  · rw [accessCells_found hkind]
    exact setDisturbed_word _ hwf j
  · rw [accessCells_corrected hkind hclass]
    exact setDisturbed_word _ hwf j
  · exact ⟨by simp, by simp⟩

/-! ## The result -/

theorem classify_uncorrectable_iff (f : Fin 8 → Disturbance) : classify f = .uncorrectable ↔ ∃ j, f j = .moreBits := by
  have hany : (((List.finRange 8).any fun j => f j == .moreBits) = true) ↔ ∃ j, f j = .moreBits := by simp
  unfold classify
  split
  · rename_i h
    exact ⟨fun _ => hany.mp h, fun _ => rfl⟩
  · rename_i h
    refine ⟨fun hclass => ?_, fun hex => absurd (hany.mpr hex) h⟩
    split at hclass <;> exact absurd hclass (by simp)

theorem classify_clean_iff (f : Fin 8 → Disturbance) : classify f = .clean ↔ ∀ j, f j = .clean := by
  unfold classify
  split
  · rename_i h
    refine ⟨fun hclass => absurd hclass (by simp), fun hall => ?_⟩
    simp [hall] at h
  · rename_i h
    have hmore : ∀ j, f j ≠ .moreBits := by simpa using h
    have hcount : ((List.finRange 8).countP fun j => f j == .oneBit) = 0 ↔ ∀ j, f j = .clean := by
      rw [List.countP_eq_zero]
      refine ⟨fun hnone j => ?_, fun hall j _ => by simp [hall j]⟩
      have hone := hnone j (List.mem_finRange j)
      cases hj : f j with
      | clean => rfl
      | oneBit => exact absurd (beq_iff_eq.mpr hj) hone
      | moreBits => exact absurd hj (hmore j)
    rw [← hcount]
    split
    · rename_i hzero
      exact ⟨fun _ => hzero, fun _ => rfl⟩
    · rename_i hpos
      rw [hpos]
      exact ⟨fun hclass => absurd hclass (by simp), fun hzero => absurd hzero (by simp)⟩

/-- A corrected class counts the words with one disturbed bit. -/
theorem classify_corrected {f : Fin 8 → Disturbance} {n : Nat} (h : classify f = .corrected n) :
    1 ≤ n ∧ n ≤ 8 ∧ n = (List.finRange 8).countP fun j => f j == .oneBit := by
  have hle : ((List.finRange 8).countP fun j => f j == .oneBit) ≤ 8 := Nat.le_trans List.countP_le_length (by simp)
  unfold classify at h
  split at h
  · exact absurd h (by simp)
  · split at h
    · exact absurd h (by simp)
    · rename_i hcount
      cases h
      exact ⟨Nat.succ_pos _, Nat.le_trans (Nat.le_of_eq hcount.symm) hle, hcount.symm⟩

/-- Two disturbances of one word make it uncorrectable (R104, R107). -/
theorem joinDisturbance_spec (d e : Disturbance) : joinDisturbance .clean d = d ∧ joinDisturbance d .clean = d
    ∧ (d ≠ .clean → e ≠ .clean → joinDisturbance d e = .moreBits) := by
  refine ⟨rfl, by cases d <;> rfl, fun hd he => ?_⟩
  cases d with
  | clean => exact absurd rfl hd
  | moreBits => cases e <;> rfl
  | oneBit =>
    cases e with
    | clean => exact absurd rfl he
    | oneBit | moreBits => rfl

theorem handResult_of_none {q : BankRequest} {s : State} (h : q.stroke.bind (findStroke s) = none) (c : Classification) (data : Line) :
    handResult q c data s = s := by
  rw [handResult, h]

/-- The result at the stroke that placed the request, by the request's kind and the class found. -/
theorem handResult_of_some {q : BankRequest} {s : State} {r : StrokeRecord} (h : q.stroke.bind (findStroke s) = some r) (c : Classification)
    (data : Line) :
    (∀ l, q.kind = .write l → handResult q c data s = strokeDone r s)
    ∧ (q.kind = .read ∨ q.kind = .scrub → c = .uncorrectable → handResult q c data s = strokeFailed r .dataError s)
    ∧ (q.kind = .scrub → c ≠ .uncorrectable → handResult q c data s = strokeDone { r with corrected := c.words } s)
    ∧ (q.kind = .read → c ≠ .uncorrectable → handResult q c data s = readDelivered r c.words data s) := by
  unfold handResult
  rw [h]
  refine ⟨fun l hkind => ?_, fun hkind hclass => ?_, fun hkind hclass => ?_, fun hkind hclass => ?_⟩
  · simp only [hkind]
  · subst hclass
    obtain hkind | hkind := hkind <;> simp only [hkind]
  · simp only [hkind]
  · simp only [hkind]

/-- The bank and the array once the access is over, before the result is handed on (R124). -/
def accessOver (b : BankId) (q : BankRequest) (fresh : LineDisturbance) (s : State) : State :=
  { s with banks := s.banks.set b { s.banks[b] with state := .opened, inHand := none }, array := accessCells b q fresh s.array }

theorem findStroke_accessOver (b : BankId) (q : BankRequest) (fresh : LineDisturbance) (s : State) :
    findStroke (accessOver b q fresh s) = findStroke s := rfl

theorem accessDone_eq (b : BankId) (q : BankRequest) (fresh : LineDisturbance) (s : State) : accessDone b q fresh s =
    closeOrDecide b (handResult q (requestClass b q fresh s.array) (readLine s.array (requestAddress b q)) (accessOver b q fresh s)) := rfl

/-- The bank of an access is OPEN after it, every other bank is as it was. -/
theorem accessOver_unpowered_iff (b c : BankId) (q : BankRequest) (fresh : LineDisturbance) (s : State) :
    (accessOver b q fresh s).banks[c].state = .unpowered ↔ c ≠ b ∧ s.banks[c].state = .unpowered := by
  by_cases hc : c = b
  · subst hc
    have hopened : (accessOver c q fresh s).banks[c] = { s.banks[c] with state := .opened, inHand := none } := getElem_set_same _ _ _
    rw [hopened]
    simp
  · have hother : (accessOver b q fresh s).banks[c] = s.banks[c] := getElem_set_other _ _ _ _ hc
    rw [hother]
    simp [hc]

/-- The stroke and its buffer once the array has delivered the bytes. -/
def delivered (r : StrokeRecord) (n : Nat) (data : Line) (s : State) : State :=
  lineReady r (fun x => { x with phase := if r.kind = .copy then .arrayWriting else .hostWriting, corrected := n }) data s

theorem readDelivered_copy {r : StrokeRecord} (hkind : r.kind = .copy) (n : Nat) (data : Line) (s : State) :
    readDelivered r n data s = placeWrite { r with corrected := n } r.destPlace data (delivered r n data s) := by
  unfold readDelivered delivered lineReady
  simp only [hkind, if_true]

theorem readDelivered_fetch {r : StrokeRecord} (hkind : r.kind ≠ .copy) (n : Nat) (data : Line) (s : State) :
    readDelivered r n data s = placeRequest (.hostWrite r.id) (delivered r n data s) := by
  unfold readDelivered delivered lineReady
  simp only [if_neg hkind]

/-- Settles O48: the result of an access goes to the stroke that placed it, then the bank closes or decides. -/
theorem accessHandsItsResultOn : Obligations.AccessHandsItsResultOn := by
  refine ⟨fun m a j => ?_, fun b q fresh m => rfl, joinDisturbance_spec,
    fun f => ⟨classify_uncorrectable_iff f, classify_clean_iff f, fun n h => classify_corrected h⟩, fun w b => closeOrDecide_closes,
    fun w b hhold hstand => (congrArg Host.Outcome.next (closeOrDecide_decides hhold hstand)).symm, fun s b q fresh hstate hinHand => ?_⟩
  · simp [readLine]
  · refine ⟨accessOver b q fresh s, handResult q (requestClass b q fresh s.array) (readLine s.array (requestAddress b q)) (accessOver b q fresh s),
      (exec_bankAccessComplete hstate hinHand fresh).trans (by rw [accessDone_eq]), rfl, fun hnone => handResult_of_none (s := accessOver b q fresh s) hnone _ _,
      fun r hr => ?_⟩
    generalize hv : accessOver b q fresh s = v
    generalize hc : requestClass b q fresh s.array = c
    have hfound : q.stroke.bind (findStroke v) = some r := by rw [← hv, findStroke_accessOver]; exact hr
    obtain ⟨hwrite, hfails, hscrub, hread⟩ := handResult_of_some hfound c (readLine s.array (requestAddress b q))
    refine ⟨hwrite, hfails, hscrub, fun hkind hclass => ?_⟩
    have heq := lineReady_eq r (fun x => { x with phase := if r.kind = .copy then .arrayWriting else .hostWriting, corrected := c.words })
      (readLine s.array (requestAddress b q)) v
    generalize hx : delivered r c.words (readLine s.array (requestAddress b q)) v = x at hread
    rw [← delivered, hx] at heq
    have hstrokes : v.strokes = s.strokes := by rw [← hv]; rfl
    have hbanks : x.banks = v.banks := by rw [heq]
    rw [hread hkind hclass]
    refine ⟨x, by rw [heq], ?_, fun f hf => ?_, fun hcopy => ?_, fun hcopy hpower => ?_, fun hcopy hother hpower => ?_⟩
    · rw [heq, ← hstrokes]
      refine List.map_congr_left fun y _ => ?_
      by_cases hy : y.id = r.id
      · rw [if_pos (beq_iff_eq.mpr hy), if_neg (not_not_intro hy)]
      · rw [if_neg (by simpa using hy), if_pos hy]
    · rw [heq, ← hstrokes]
      exact fillBuffer_buffers hf _ v
    · rw [readDelivered_fetch hcopy, hx]
    · rw [readDelivered_copy hcopy, hx]
      refine placeWrite_joins fun hdown => ?_
      rw [hbanks, ← hv, accessOver_unpowered_iff] at hdown
      exact hpower.elim hdown.1 fun h => h hdown.2
    · rw [readDelivered_copy hcopy, hx]
      refine placeWrite_fails ?_
      rw [hbanks, ← hv, accessOver_unpowered_iff]
      exact ⟨hother, hpower⟩

end Sys2Proof.Safety
end

section
/-! PROOFS. The switch controller takes its requests (R168 to R170). -/

namespace Sys2Proof.Safety

open Sys2Proof.Machine

/-! ## A stand-down at a bank (R126) -/

section StandDown

variable {s : State} {b : BankId}

theorem standDownAt_unpowered (h : s.banks[b].state = .unpowered) : standDownAt b s = s := by
  rw [standDownAt, h]

theorem standDownAt_opened (h : s.banks[b].state = .opened) :
    standDownAt b s = { s with banks := s.banks.set b { s.banks[b] with state := .closing, standDown := true } } := by
  rw [standDownAt, h]
  rfl

theorem standDownAt_working (h : s.banks[b].state = .opening ∨ s.banks[b].state = .accessing ∨ s.banks[b].state = .closing
    ∨ s.banks[b].state = .refreshing) : standDownAt b s = { s with banks := s.banks.set b { s.banks[b] with standDown := true } } := by
  unfold standDownAt
  obtain h | h | h | h := h <;> rw [h] <;> rfl

theorem standDownAt_resting (h : s.banks[b].state = .idle ∨ s.banks[b].state = .asleep) :
    standDownAt b s = reportStoodDown b { s with banks := s.banks.set b { s.banks[b] with standDown := true } } := by
  unfold standDownAt
  obtain h | h := h <;> rw [h] <;> rfl

end StandDown

/-! ## A completed request (R83, R168) -/

theorem laneHolds_iff (s : State) (n : OrderName) : laneHolds s n = true ↔ ∃ o, laneOrder s n.lane = some o ∧ o.seq = n.seq := by
  simp [laneHolds, Option.any_eq_true]

theorem powerComplete_held {s : State} {n : OrderName} (h : laneHolds s n = true) :
    powerComplete (some n) s = orderComplete n.lane (plainResult .ok) s := if_pos h

theorem powerComplete_gone {s : State} {n : OrderName} (h : laneHolds s n = false) : powerComplete (some n) s = s :=
  if_neg (Bool.eq_false_iff.mp h)

/-! ## The requests taken (R168) -/

section Take

variable {s : State} {q : DomainRequest} {rest : List DomainRequest}

theorem switchTakes_serving (h : s.domains.serving ≠ none) : switchTakes s = s := by
  unfold switchTakes
  cases s.domains.requests.length with
  | zero => rfl
  | succ fuel =>
    rw [takeRequests]
    split
    · rename_i hserving _
      exact absurd hserving h
    · rfl

theorem switchTakes_none (h : s.domains.requests = []) : switchTakes s = s := by
  rw [switchTakes, h]
  rfl

/-- The head request leaves the list, and is complete at once, a ramp-up or a stand-down. -/
theorem switchTakes_cons (hserving : s.domains.serving = none) (hrequests : s.domains.requests = q :: rest) : switchTakes s =
    if s.domains.states[q.domain] = endState q.on then takeRequests rest.length (powerComplete (some q.order) (popRequest s))
    else if q.on then startRampUp q (popRequest s) else startStandDown q (popRequest s) := by
  rw [switchTakes, hrequests, List.length_cons, takeRequests, hserving, hrequests]

theorem popRequest_eq (hrequests : s.domains.requests = q :: rest) : popRequest s = { s with domains := { s.domains with requests := rest } } := by
  rw [popRequest, hrequests]
  rfl

theorem switchTakes_complete (hserving : s.domains.serving = none) (hrequests : s.domains.requests = q :: rest)
    (hend : s.domains.states[q.domain] = endState q.on) :
    switchTakes s = switchTakes (powerComplete (some q.order) { s with domains := { s.domains with requests := rest } }) := by
  have hlength : (powerComplete (some q.order) { s with domains := { s.domains with requests := rest } }).domains.requests = rest := by simp
  rw [switchTakes_cons hserving hrequests, if_pos hend, popRequest_eq hrequests, switchTakes, hlength]

theorem switchTakes_rampUp (hserving : s.domains.serving = none) (hrequests : s.domains.requests = q :: rest) (hon : q.on = true)
    (hstate : s.domains.states[q.domain] ≠ .on) :
    switchTakes s = startRampUp q { s with domains := { s.domains with requests := rest } } := by
  rw [switchTakes_cons hserving hrequests, hon, if_neg (c := _ = endState true) hstate, if_pos rfl, popRequest_eq hrequests]

theorem switchTakes_rampDown (hserving : s.domains.serving = none) (hrequests : s.domains.requests = q :: rest) (hoff : q.on = false)
    (hstate : s.domains.states[q.domain] ≠ .off) :
    switchTakes s = startStandDown q { s with domains := { s.domains with requests := rest } } := by
  rw [switchTakes_cons hserving hrequests, hoff, if_neg (c := _ = endState false) hstate, if_neg Bool.false_ne_true, popRequest_eq hrequests]

end Take

theorem headerAsked_setDomain (d : DomainId) (st : DomainState) (s : State) : HeaderAsked (setDomain d st s) :=
  headerAsked_requestHeaderUpdate _

/-- Settles O51: what the switch controller does with the head request. -/
theorem switchTakesTheHead : Obligations.SwitchTakesTheHead := by
  refine ⟨⟨fun s b => ⟨standDownAt_unpowered, standDownAt_opened, standDownAt_working, fun v hrest hserving hphase hdomain => ?_⟩, fun s => rfl,
    fun s l q hgone => ?_, fun s l q e o he ho hseq hlife u hu => ?_⟩, fun s h => ?_, fun s q rest hserving hrequests => ⟨fun hend => ?_,
    fun hon hstate => ?_, fun hoff hstate => ?_⟩⟩
  · exact (standDownAt_resting hrest).trans
      (reportStoodDown_of_served (s := { s with banks := s.banks.set b { s.banks[b] with standDown := true } }) hserving hphase hdomain)
  · refine powerComplete_gone (Bool.eq_false_iff.mpr fun hheld => ?_)
    obtain ⟨o, ho, hseq⟩ := (laneHolds_iff _ _).mp hheld
    exact hgone o ho hseq
  · have horder : laneOrder s l = some o := (laneOrder_of_entry he).trans ho
    have hu : u = toReporting l (plainResult .ok) s := by
      rw [hu, powerComplete_held ((laneHolds_iff _ _).mpr ⟨o, horder, hseq⟩), orderComplete_running horder hlife]
    subst hu
    obtain ⟨hslots, hlanes⟩ := toReporting_others he ho (plainResult .ok)
    exact ⟨toReporting_reports he ho _, samePort_toReporting l _ s, by simp, sameArraySide_toReporting l _ s, by simp, hslots, hlanes⟩
  · have hnothing : switchTakes s = s := h.elim switchTakes_serving switchTakes_none
    exact ⟨congrArg (fun u => Host.Outcome.next (settle s u)) hnothing, hnothing⟩
  · exact ⟨rfl, switchTakes_complete hserving hrequests hend⟩
  · have hup := switchTakes_rampUp hserving hrequests hon hstate
    refine ⟨_, rfl, rfl, ?_⟩
    rw [hup]
    refine ⟨by simp [startRampUp, setDomain, Config.rampUpUs], headerAsked_setDomain _ _ _, ⟨by simp, by simp⟩, ?_, by simp, by simp, by simp, by simp,
      by simp, by simp⟩
    simp [SameOrders]
  · exact ⟨rfl, switchTakes_rampDown hserving hrequests hoff hstate⟩

end Sys2Proof.Safety
end

section
/-! PROOFS. A domain ramps up, drains and ramps down (R125, R126, R142, R152, R153, R169, R170). -/

namespace Sys2Proof.Safety

open Sys2Proof.Machine

/-! ## The two banks of a domain -/

theorem bankDomain_eq_iff {b : BankId} {d : DomainId} : bankDomain b = d ↔ b = lowerBank d ∨ b = upperBank d := by
  refine ⟨fun h => (Classical.em _).imp_right (eq_upperBank h), fun h => ?_⟩
  rcases h with rfl | rfl <;> apply Fin.ext <;> simp only [bankDomain, lowerBank, upperBank] <;> omega

/-- What changes at the lower and then at the upper bank of a domain has changed at the domain's banks. -/
theorem change_both_banks {α : Type} {d : DomainId} {F : BankId → α → α} {v w x : Vector α 8}
    (hlower : ∀ b : BankId, w[b] = if b = lowerBank d then F b v[b] else v[b])
    (hupper : ∀ b : BankId, x[b] = if b = upperBank d then F b w[b] else w[b]) (b : BankId) :
    x[b] = if bankDomain b = d then F b v[b] else v[b] := by
  rw [hupper, hlower]
  simp only [bankDomain_eq_iff]
  by_cases hl : b = lowerBank d
  · have hu : b ≠ upperBank d := hl ▸ lowerBank_ne_upperBank d
    rw [if_pos hl, if_neg hu, if_pos (.inl hl)]
  · by_cases hu : b = upperBank d
    · rw [if_neg hl, if_pos hu, if_pos (.inr hu)]
    · rw [if_neg hl, if_neg hu, if_neg (not_or.mpr ⟨hl, hu⟩)]

theorem getElem_set_eq_ite {α : Type} {n : Nat} (v : Vector α n) (i j : Fin n) (x : α) : (v.set i x)[j] = if j = i then x else v[j] := by
  by_cases hj : j = i
  · subst hj
    rw [if_pos rfl, getElem_set_same]
  · rw [if_neg hj, getElem_set_other _ _ _ _ hj]

/-! ## The end of a ramp-up (R169) -/

/-- A bank that takes power (R125). -/
def poweredBank (mode : ArrayMode) (k : Bank) : Bank :=
  { state := if mode = .run then .idle else .asleep, openRow := none, requests := [], inHand := none, streak := 0, sleepHold := false,
    standDown := false, rowGroup := k.rowGroup }

theorem powerUpBank_get (b c : BankId) (s : State) :
    (powerUpBank b s).banks[c] = if c = b then poweredBank s.arrayMode.mode s.banks[c] else s.banks[c] := by
  refine (getElem_set_eq_ite s.banks b c _).trans ?_
  split
  · rename_i hc
    subst hc
    rfl
  · rfl

theorem rampedUp_banks (d : DomainId) (s : State) (b : BankId) :
    (rampedUp d s).banks[b] = if bankDomain b = d then poweredBank s.arrayMode.mode s.banks[b] else s.banks[b] := by
  have hbanks : (rampedUp d s).banks = (powerUpBank (upperBank d) (powerUpBank (lowerBank d) (setDomain d .on s))).banks := by simp [rampedUp]
  have hstart : (setDomain d .on s).banks = s.banks := by simp
  rw [hbanks, ← hstart]
  refine change_both_banks (w := (powerUpBank (lowerBank d) (setDomain d .on s)).banks) (F := fun _ => poweredBank s.arrayMode.mode)
    (fun c => ?_) (fun c => ?_) b
  · rw [powerUpBank_get]
    simp only [setDomain_frame]
  · rw [powerUpBank_get]
    simp only [powerUpBank_frame, setDomain_frame]

theorem rampedUp_regions (d : DomainId) (s : State) (r : RegionId) :
    (rampedUp d s).regions[r] = if regionDomain r = d then Region.become .dropped else s.regions[r] := by
  rw [rampedUp, domainBecomes_get]
  simp only [powerUpBank_frame, setDomain_frame]

theorem rampedUp_refresh (d : DomainId) (s : State) : (rampedUp d s).refresh = s.refresh := by simp [rampedUp]

/-- A bank without requests and with nothing due stays as it is when it decides (R118). -/
theorem bankDecide_quiet {s : State} {b : BankId} (hrequests : s.banks[b].requests = []) (hquiet : indication s b = (.noneDue, false)) :
    bankDecide b s = s := by
  rw [bankDecide, hquiet, decide1_quiet hrequests, setBank_self]

theorem indication_of_rest {s : State} {b : BankId} (haccount : s.refresh.banks[b].account = 0) (hk : s.refresh.banks[b].k = 0) :
    indication s b = (.noneDue, false) := by
  rw [indication, refreshLevel, pullInAllowed, haccount, hk]
  rfl

/-- The banks of a domain that takes power decide nothing. -/
theorem bankDecide_rampedUp {s : State} {v : Served} (h : RefreshLegal s) (hserving : s.domains.serving = some v) (hphase : v.phase = .rising)
    {b : BankId} (hb : bankDomain b = v.domain) : bankDecide b (rampedUp v.domain s) = rampedUp v.domain s := by
  have hk := h.k_zero_of_not_on (h.not_on_of_serving hserving (.inl hphase)) hb
  obtain ⟨hbanks, -⟩ := h
  obtain ⟨-, -, -, hrest⟩ := hbanks b
  refine bankDecide_quiet ?_ (indication_of_rest ?_ ?_)
  · rw [rampedUp_banks, if_pos hb]
    rfl
  · rw [rampedUp_refresh]
    exact (hrest (.inl hk)).1
  · rw [rampedUp_refresh]
    exact hk

/-- A ramp is over: the switch controller serves no request. -/
def rampOver (s : State) : State := { s with domains := { s.domains with serving := none, rampTimer := none } }

theorem endRamp_eq (v : Served) (s : State) : endRamp v s = switchTakes (powerComplete v.owner (rampOver s)) := rfl

theorem finishRampUp_eq {s : State} {v : Served} (h : RefreshLegal s) (hserving : s.domains.serving = some v) (hphase : v.phase = .rising) :
    finishRampUp v s = switchTakes (powerComplete v.owner (rampOver (rampedUp v.domain s))) := by
  have hlower := bankDecide_rampedUp h hserving hphase (bankDomain_eq_iff.mpr (.inl rfl))
  have hupper := bankDecide_rampedUp h hserving hphase (bankDomain_eq_iff.mpr (.inr rfl))
  rw [finishRampUp, ← rampedUp, hlower, hupper, endRamp_eq]

theorem exec_ramp {s : State} {v : Served} {phase : SwitchPhase} (hserving : s.domains.serving = some v) (hphase : v.phase = phase)
    (htimer : s.domains.rampTimer.isSome = true) (f : Served → State → State) : onRamp phase f s = settle s (f v s) := by
  rw [onRamp, hserving]
  exact if_pos ⟨hphase, htimer⟩

/-! ## The drain of a domain (R126, R142, R153, R170) -/

theorem powerOffBank_get (b c : BankId) (s : State) :
    (powerOffBank b s).banks[c] = if c = b then unpoweredBank s.banks[c] else s.banks[c] := by
  refine (getElem_set_eq_ite s.banks b c _).trans ?_
  split
  · rename_i hc
    subst hc
    rfl
  · rfl

theorem powerOffBank_refresh_get (b c : BankId) (s : State) :
    (powerOffBank b s).refresh.banks[c] = if c = b then refreshAtRest s.refresh.banks[c] else s.refresh.banks[c] := by
  refine (getElem_set_eq_ite s.refresh.banks b c _).trans ?_
  split
  · rename_i hc
    subst hc
    rfl
  · rfl

/-- The domain's banks and regions have lost power; k is not handed over yet. -/
def powerLost (d : DomainId) (s : State) : State :=
  domainBecomes d .off (powerOffBank (upperBank d) (powerOffBank (lowerBank d) { s with array := discardCells d s.array }))

theorem dropPower_eq (d : DomainId) (s : State) : dropPower d s = handK (upperBank d) (handK (lowerBank d) (powerLost d s)) := rfl

theorem powerLost_banks (d : DomainId) (s : State) (b : BankId) :
    (powerLost d s).banks[b] = if bankDomain b = d then unpoweredBank s.banks[b] else s.banks[b] := by
  have hbanks : (powerLost d s).banks =
      (powerOffBank (upperBank d) (powerOffBank (lowerBank d) { s with array := discardCells d s.array })).banks := by simp [powerLost]
  rw [hbanks]
  exact change_both_banks (F := fun _ => unpoweredBank) (v := s.banks) (fun c => powerOffBank_get _ c _) (fun c => powerOffBank_get _ c _) b

theorem powerLost_refresh (d : DomainId) (s : State) (b : BankId) :
    (powerLost d s).refresh.banks[b] = if bankDomain b = d then refreshAtRest s.refresh.banks[b] else s.refresh.banks[b] := by
  have hbanks : (powerLost d s).refresh =
      (powerOffBank (upperBank d) (powerOffBank (lowerBank d) { s with array := discardCells d s.array })).refresh := by simp [powerLost]
  rw [hbanks]
  exact change_both_banks (F := fun _ => refreshAtRest) (v := s.refresh.banks) (fun c => powerOffBank_refresh_get _ c _)
    (fun c => powerOffBank_refresh_get _ c _) b

theorem powerLost_regions (d : DomainId) (s : State) (r : RegionId) :
    (powerLost d s).regions[r] = if regionDomain r = d then Region.become .off else s.regions[r] := by
  rw [powerLost, domainBecomes_get]
  simp only [powerOffBank_frame]

/-- The banks of a domain that has lost power retain nothing. -/
theorem retainedCount_powerLost {b : BankId} {d : DomainId} (hb : bankDomain b = d) (s : State) : retainedCount (powerLost d s) b = 0 := by
  refine retainedCount_eq_zero fun r hr => ?_
  rw [regionState, powerLost_regions, if_pos (by rw [regionDomain, hr, hb])]
  rfl

theorem dropPower_banks (d : DomainId) (s : State) : (dropPower d s).banks = (powerLost d s).banks := by
  have hrequests : ∀ {b : BankId}, bankDomain b = d → (powerLost d s).banks[b].requests = [] := fun hb => by
    rw [powerLost_banks, if_pos hb]
    rfl
  have hlower : bankDomain (lowerBank d) = d := bankDomain_eq_iff.mpr (.inl rfl)
  have hupper : bankDomain (upperBank d) = d := bankDomain_eq_iff.mpr (.inr rfl)
  have hfirst : (handK (lowerBank d) (powerLost d s)).banks = (powerLost d s).banks :=
    handK_banks_of_quiet (hrequests hlower) fun _ => retainedCount_powerLost hlower s
  rw [dropPower_eq, handK_banks_of_quiet (by rw [hfirst]; exact hrequests hupper) fun _ => ?_, hfirst]
  rw [retainedCount_congr (s := powerLost d s) (by simp), retainedCount_powerLost hupper]

/-- The account of a bank that has lost power and been handed k 0 (R142). -/
def unpoweredRefresh (r : RefreshBank) : RefreshBank := { account := 0, k := 0, timer := none, void := false, interval := r.interval }

theorem refreshWithK_at_rest {k : Bank} (hk : k.state = .unpowered) (c : TempClass) (r : RefreshBank) :
    refreshWithK c k 0 (refreshAtRest r) = unpoweredRefresh r := by
  unfold refreshWithK
  split
  · rename_i h0
    rw [refreshAtRest, unpoweredRefresh, ← show 0 = r.k from h0]
  · rw [if_pos rfl, hk]
    rfl

/-- The hand-over at a bank of the domain that has lost power. -/
theorem handK_powerLost {t s : State} {d : DomainId} {b : BankId} (hb : bankDomain b = d) (hbanks : t.banks = (powerLost d s).banks)
    (hregions : t.regions = (powerLost d s).regions) (hrefresh : t.refresh.banks[b] = (powerLost d s).refresh.banks[b]) :
    (handK b t).refresh.banks[b] = unpoweredRefresh s.refresh.banks[b] := by
  rw [handK_bank_same, hrefresh, retainedCount_congr hregions, retainedCount_powerLost hb, powerLost_refresh, if_pos hb]
  refine refreshWithK_at_rest ?_ _ _
  rw [hbanks, powerLost_banks, if_pos hb]
  rfl

theorem dropPower_refresh (d : DomainId) (s : State) (b : BankId) :
    (dropPower d s).refresh.banks[b] = if bankDomain b = d then unpoweredRefresh s.refresh.banks[b] else s.refresh.banks[b] := by
  have hlower : bankDomain (lowerBank d) = d := bankDomain_eq_iff.mpr (.inl rfl)
  have hupper : bankDomain (upperBank d) = d := bankDomain_eq_iff.mpr (.inr rfl)
  have hfirst : (handK (lowerBank d) (powerLost d s)).banks = (powerLost d s).banks :=
    handK_banks_of_quiet (by rw [powerLost_banks, if_pos hlower]; rfl) fun _ => retainedCount_powerLost hlower s
  rw [dropPower_eq]
  by_cases hu : b = upperBank d
  · subst hu
    rw [if_pos hupper]
    exact handK_powerLost hupper hfirst (by simp) (handK_bank_other _ _ _ (lowerBank_ne_upperBank d).symm)
  · rw [handK_bank_other _ _ _ hu]
    by_cases hl : b = lowerBank d
    · subst hl
      rw [if_pos hlower]
      exact handK_powerLost hlower rfl rfl rfl
    · have hb : bankDomain b ≠ d := fun h => (bankDomain_eq_iff.mp h).elim hl hu
      rw [handK_bank_other _ _ _ hl, powerLost_refresh, if_neg hb, if_neg hb]

theorem cellGet_filter {α : Type} (z : α) (p : Nat → Bool) (m : List (Nat × α)) (x : Nat) :
    cellGet z (m.filter fun c => p c.1) x = if p x then cellGet z m x else z := by
  induction m with
  | nil => exact (ite_self z).symm
  | cons c m ih =>
    obtain ⟨a, y⟩ := c
    cases hp : p a with
    | true =>
      have hkeep : ((a, y) :: m).filter (fun c => p c.1) = (a, y) :: m.filter fun c => p c.1 := List.filter_cons_of_pos hp
      rw [hkeep, cellGet, cellGet, ih]
      by_cases ha : a = x
      · rw [if_pos ha, if_pos ha, ← ha, hp]
        rfl
      · rw [if_neg ha, if_neg ha]
    | false =>
      have hgone : ((a, y) :: m).filter (fun c => p c.1) = m.filter fun c => p c.1 := List.filter_cons_of_neg (by simp [hp])
      rw [hgone, cellGet, ih]
      by_cases ha : a = x
      · rw [← ha, hp]
        rfl
      · rw [if_neg ha]

/-- The bytes of a domain that lost power read 0 (R153, logs 12 and 14). -/
theorem arrayByte_discardCells (d : DomainId) (m : ArrayCells) (x : Nat) :
    arrayByte (discardCells d m) x = if bankDomain (addrBank x) = d then 0 else arrayByte m x := by
  refine (cellGet_filter unlistedByte (fun a => bankDomain (addrBank a) != d) m.bytes x).trans ?_
  by_cases hx : bankDomain (addrBank x) = d
  · rw [if_neg (by simp [hx]), if_pos hx, unlistedByte]
  · rw [if_pos (by simp [hx]), if_neg hx, arrayByte]

/-! ## The drain start -/

/-- The state in which the waiting strokes of a drained domain fail (R126, R170). -/
def drained (v : Served) (s : State) : State :=
  lostSetFollow (lostMap (setDomain v.domain .rampingDown (beginFall v s))) (dropPower v.domain (setDomain v.domain .rampingDown (beginFall v s)))

theorem discardStroke_found {s : State} {r : StrokeRecord} (h : ∃ x ∈ s.strokes.records, x.id = r.id) :
    discardStroke s r = strokeFailed r .regionDropped s := by
  refine if_pos ?_
  rw [findStroke, List.find?_isSome]
  simpa using h

theorem discardStroke_gone {s : State} {r : StrokeRecord} (h : ∀ x ∈ s.strokes.records, x.id ≠ r.id) : discardStroke s r = s := by
  refine if_neg ?_
  rw [findStroke, List.find?_isSome]
  simpa using h

theorem HeaderAsked.after_lostSetFollow {s : State} (h : HeaderAsked s) (before : BitVec 64) : HeaderAsked (lostSetFollow before s) := by
  unfold lostSetFollow
  split
  · exact h
  · exact headerAsked_requestHeaderUpdate s

theorem drainTest_starts {s : State} {v : Served} (hserving : s.domains.serving = some v) (hphase : v.phase = .standingDown)
    (hlower : v.lowerDown = true) (hupper : v.upperDown = true) :
    drainTest s = sleepEntryTest ((waitingStrokes s (lowerBank v.domain) ++ waitingStrokes s (upperBank v.domain)).foldl discardStroke (drained v s)) := by
  rw [drainTest, hserving]
  exact if_pos (by simp [hphase, hlower, hupper])

theorem drainTest_waits {s : State} {v : Served} (hserving : s.domains.serving = some v)
    (h : v.phase ≠ .standingDown ∨ v.lowerDown = false ∨ v.upperDown = false) : drainTest s = s := by
  rw [drainTest, hserving]
  refine if_neg ?_
  simp only [Bool.and_eq_true, beq_iff_eq]
  rintro ⟨⟨hphase, hlower⟩, hupper⟩
  exact h.elim (absurd hphase) fun h => h.elim (fun h => absurd (hlower.symm.trans h) (by decide)) fun h => absurd (hupper.symm.trans h) (by decide)

section Drained

variable (v : Served) (s : State)

theorem drained_domains : (drained v s).domains = { s.domains with
    states := s.domains.states.set v.domain .rampingDown, serving := some { v with phase := .falling }, rampTimer := some 10 } := by
  simp [drained, setDomain, beginFall, Config.rampDownUs]

theorem headerAsked_drained : HeaderAsked (drained v s) :=
  ((headerAsked_setDomain v.domain .rampingDown (beginFall v s)).congr (by simp) (by simp)).after_lostSetFollow _

theorem drained_banks (b : BankId) : (drained v s).banks[b] = if bankDomain b = v.domain then unpoweredBank s.banks[b] else s.banks[b] := by
  have hbanks : (drained v s).banks = (powerLost v.domain (setDomain v.domain .rampingDown (beginFall v s))).banks := by
    simp [drained, dropPower_banks]
  rw [hbanks, powerLost_banks]
  simp only [setDomain_frame]
  rfl

theorem drained_regions (r : RegionId) : (drained v s).regions[r] = if regionDomain r = v.domain then Region.become .off else s.regions[r] := by
  have hregions : (drained v s).regions = (powerLost v.domain (setDomain v.domain .rampingDown (beginFall v s))).regions := by
    simp [drained, dropPower_eq]
  rw [hregions, powerLost_regions]
  simp only [setDomain_frame]
  rfl

theorem drained_refresh (b : BankId) : (drained v s).refresh.banks[b] =
    if bankDomain b = v.domain then unpoweredRefresh s.refresh.banks[b] else s.refresh.banks[b] := by
  have hrefresh : (drained v s).refresh = (dropPower v.domain (setDomain v.domain .rampingDown (beginFall v s))).refresh := by simp [drained]
  rw [hrefresh, dropPower_refresh]
  simp only [setDomain_frame]
  rfl

theorem drained_array : (drained v s).array = discardCells v.domain s.array := by
  simp [drained, dropPower_eq, powerLost, beginFall]

end Drained

/-- Settles O52: a domain ramps up, drains and ramps down. -/
theorem rampsMoveTheDomain : Obligations.RampsMoveTheDomain := by
  refine ⟨fun s v hserving hphase htimer hlegal => ?_, fun s v hserving h => ?_, fun s => ⟨rfl, fun h => ?_⟩,
    fun s r => ⟨discardStroke_found, discardStroke_gone⟩, fun s b => rfl, fun s v hserving hphase hlower hupper _ => ?_,
    fun s v hserving hphase htimer => ?_⟩
  · refine ⟨rampOver (rampedUp v.domain s), ?_, by simp [rampOver, rampedUp, setDomain],
      (headerAsked_setDomain v.domain .on s).congr (by simp [rampOver, rampedUp]) (by simp [rampOver, rampedUp]),
      ⟨by simp [rampOver, rampedUp], by simp [rampOver, rampedUp]⟩, by simp [SameOrders, rampOver, rampedUp], by simp [rampOver, rampedUp],
      by simp [rampOver, rampedUp], by simp [rampOver, rampedUp], by simp [rampOver, rampedUp], rampedUp_regions v.domain s, rampedUp_banks v.domain s⟩
    refine congrArg Host.Outcome.next ((exec_ramp hserving hphase htimer finishRampUp).trans ?_)
    rw [finishRampUp_eq hlegal hserving hphase]
  · have hwaits := drainTest_waits hserving h
    exact ⟨congrArg (fun u => Host.Outcome.next (settle s u)) hwaits, hwaits⟩
  · exact drainTest_of_phase fun v hv => absurd (h.symm.trans hv) (by simp)
  · refine ⟨drained v s, rfl, drainTest_starts hserving hphase hlower hupper, drained_domains v s, headerAsked_drained v s,
      ⟨by simp [drained, beginFall], by simp [drained, beginFall]⟩, by simp [SameOrders, drained, beginFall], by simp [drained, beginFall],
      by simp [drained, beginFall], drained_banks v s, drained_regions v s, drained_refresh v s, by simp [drained, beginFall],
      by simp [drained, beginFall], fun x => ?_⟩
    rw [drained_array, arrayByte_discardCells]
  · refine ⟨rampOver (setDomain v.domain .off s), congrArg Host.Outcome.next (exec_ramp hserving hphase htimer finishRampDown), ?_,
      (headerAsked_setDomain v.domain .off s).congr rfl rfl, ⟨by simp [rampOver], by simp [rampOver]⟩, by simp [SameOrders, rampOver],
      by simp [rampOver], by simp [rampOver], by simp [rampOver], by simp [rampOver], by simp [rampOver], by simp [rampOver]⟩
    simp [rampOver, setDomain]

end Sys2Proof.Safety
end

section
/-! PROOFS. A breach stops the owners of the ARMING regions it takes (R84, R158, R159). -/

namespace Sys2Proof.Safety

open Sys2Proof.Machine

/-! ## An order that a breach has stopped -/

/-- The order has taken the stop cause REGION_LOST (R85, R159). -/
def LostStop (p : PoolOrder) : Prop := p.stopCause = some .regionLost ∧ (p.life = .stopping ∨ p.life = .reporting)

theorem LostStop.not_running {p : PoolOrder} (h : LostStop p) : p.life ≠ .running := by
  obtain ⟨-, hlife | hlife⟩ := h <;> rw [hlife] <;> decide

/-- The order named is RUNNING in its lane. -/
def Runs (s : State) (n : OrderName) : Prop := ∃ o, laneOrder s n.lane = some o ∧ o.life = .running ∧ o.seq = n.seq

/-- What is found at a place that held `before`: the same, or the RUNNING order that was there, stopped. -/
def Stopped (before after : Option PoolOrder) : Prop :=
  after = before ∨ ∃ o p, before = some o ∧ o.life = .running ∧ after = some p ∧ LostStop p

theorem Stopped.running {x y : Option PoolOrder} (h : Stopped x y) {o : PoolOrder} (ho : y = some o) (hlife : o.life = .running) : x = some o := by
  obtain h | ⟨-, p, -, -, hp, hstop⟩ := h
  · exact h.symm.trans ho
  · cases hp.symm.trans ho
    exact absurd hlife hstop.not_running

theorem Stopped.lost {x y : Option PoolOrder} (h : Stopped x y) {p : PoolOrder} (hp : x = some p) (hstop : LostStop p) : y = some p := by
  obtain h | ⟨o, -, ho, hlife, -⟩ := h
  · exact h.trans hp
  · cases ho.symm.trans hp
    exact absurd hlife hstop.not_running

/-- From `s` to `t` RUNNING orders have stopped, and no entry has moved to another slot. -/
structure StopsSome (s t : State) : Prop where
  entries : ReportsOnly s t
  slots : ∀ j, Stopped (slotOrder s j) (slotOrder t j)

theorem StopsSome.entry {s t : State} (h : StopsSome s t) {l : Lane} {e : TableEntry} (he : laneEntry s l = some e) :
    ∃ e', laneEntry t l = some e' ∧ e'.slot = e.slot := by
  obtain ht | ht := h.entries l
  · exact ⟨e, ht.trans he, rfl⟩
  · exact ⟨reportEntry e, by rw [ht, he]; rfl, rfl⟩

theorem StopsSome.order {s t : State} (h : StopsSome s t) (l : Lane) : Stopped (laneOrder s l) (laneOrder t l) := by
  cases he : laneEntry s l with
  | none =>
    have hnone : laneEntry t l = none := (h.entries l).elim (fun ht => ht.trans he) fun ht => by rw [ht, he]; rfl
    exact .inl (by rw [laneOrder, laneOrder, hnone, he]; rfl)
  | some e =>
    obtain ⟨e', he', hslot⟩ := h.entry he
    rw [laneOrder_of_entry he, laneOrder_of_entry he', hslot]
    exact h.slots e.slot

/-! ## One owner stops -/

section Owner

variable {s : State} {n : OrderName}

theorem stopOwner_stays (h : ¬Runs s n) : stopOwner s n = s := by
  unfold stopOwner
  split
  · rename_i hheld
    obtain ⟨o, ho, hseq⟩ := (laneHolds_iff s n).mp hheld
    refine toStopping_of_not_running (fun x hx hlife => h ⟨x, hx, hlife, ?_⟩) _
    cases ho.symm.trans hx
    exact hseq
  · rfl

theorem stopOwner_stops (h : Runs s n) : stopOwner s n = toStopping n.lane (some .regionLost) s := by
  obtain ⟨o, ho, -, hseq⟩ := h
  exact if_pos ((laneHolds_iff s n).mpr ⟨o, ho, hseq⟩)

theorem toStopping_refresh {l : Lane} {o : PoolOrder} (ho : laneOrder s l = some o) (hlife : o.life = .running) (c : Option StopCause) :
    (toStopping l c s).refresh = (stopOrder l c s).refresh ∧ (toStopping l c s).regions = (stopOrder l c s).regions := by
  rw [toStopping_running ho hlife]
  exact ⟨by simp, by simp⟩

/-- The order of an owner that stops. -/
theorem toStopping_lostStop {l : Lane} {e : TableEntry} {o : PoolOrder} (he : laneEntry s l = some e) (ho : slotOrder s e.slot = some o)
    (hlife : o.life = .running) : ∃ p, slotOrder (toStopping l (some .regionLost) s) e.slot = some p ∧ LostStop p := by
  by_cases hheld : s.engine.state = .halted ∨ laneInFlight s l = true
  · obtain ⟨hslot, -⟩ := toStopping_held he ho hlife (c := some .regionLost) (.inr hheld)
    exact ⟨_, hslot, rfl, .inl rfl⟩
  · obtain ⟨hlive, hnone⟩ := not_or.mp hheld
    obtain ⟨hslot, -⟩ := toStopping_free he ho hlife .regionLost hlive (Bool.eq_false_iff.mpr hnone)
    exact ⟨_, hslot, rfl, .inr rfl⟩

theorem stopOwner_stopsSome (s : State) (n : OrderName) : StopsSome s (stopOwner s n) := by
  by_cases hruns : Runs s n
  · rw [stopOwner_stops hruns]
    obtain ⟨o, ho, hlife, -⟩ := hruns
    obtain ⟨e, he, ho⟩ := laneOrder_eq_some ho
    refine ⟨.after_toStopping n.lane _ s, fun j => ?_⟩
    by_cases hj : j = e.slot
    · subst hj
      obtain ⟨p, hp, hstop⟩ := toStopping_lostStop he ho hlife
      exact .inr ⟨o, p, ho, hlife, hp, hstop⟩
    · exact .inl (toStopping_slot_other he ho _ hj)
  · rw [stopOwner_stays hruns]
    exact ⟨.refl s, fun j => .inl rfl⟩

theorem stopOwner_lost (h : Runs s n) : ∃ p, laneOrder (stopOwner s n) n.lane = some p ∧ LostStop p := by
  obtain ⟨o, ho, hlife, -⟩ := id h
  obtain ⟨e, he, ho⟩ := laneOrder_eq_some ho
  obtain ⟨e', he', hslot⟩ := (stopOwner_stopsSome s n).entry he
  obtain ⟨p, hp, hstop⟩ := toStopping_lostStop he ho hlife
  rw [laneOrder_of_entry he', hslot, stopOwner_stops h]
  exact ⟨p, hp, hstop⟩

/-- The regions that a stopped owner was arming go to DROPPED (R158). -/
theorem stopOwner_regions (h : Runs s n) (r : RegionId) :
    (stopOwner s n).regions[r] = if armedBy s n r then { state := .dropped, owner := none, sweep := 0 } else s.regions[r] := by
  rw [stopOwner_stops h]
  obtain ⟨o, ho, hlife, hseq⟩ := h
  rw [toStopping_regions ho hlife, hseq]

theorem stopOwner_hands {c : BankId} (hk : s.refresh.banks[c].k = retainedCount s c) :
    (stopOwner s n).refresh.banks[c].k = retainedCount (stopOwner s n) c
      ∧ ((∀ r : RegionId, regionBank r = c → s.regions[r].state ≠ .arming) → (stopOwner s n).refresh.banks[c] = s.refresh.banks[c]) := by
  by_cases hruns : Runs s n
  · rw [stopOwner_stops hruns]
    obtain ⟨o, ho, hlife, -⟩ := hruns
    obtain ⟨hrefresh, hregions⟩ := toStopping_refresh ho hlife (some .regionLost)
    obtain ⟨hcount, hsame⟩ := stopOrder_hands ho hlife (some .regionLost) hk
    rw [hrefresh, retainedCount_congr hregions]
    exact ⟨hcount, fun hnone => hsame fun r hr => Bool.eq_false_iff.mpr fun harmed => hnone r hr ((armedBy_iff _ _ _).mp harmed).1⟩
  · rw [stopOwner_stays hruns]
    exact ⟨hk, fun _ => rfl⟩

end Owner

/-! ## The owners in turn -/

/-- From `s` to `t` the owners in `done` have been stopped. -/
structure OwnersStopped (done : List OrderName) (s t : State) : Prop extends StopsSome s t where
  placed : OrdersPlaced s → OrdersPlaced t
  regions : ∀ r : RegionId, t.regions[r] = s.regions[r]
    ∨ (t.regions[r] = Region.become .dropped ∧ ∃ n ∈ done, armedBy s n r = true ∧ Runs s n)
  counts : ∀ c : BankId, s.refresh.banks[c].k = retainedCount s c → t.refresh.banks[c].k = retainedCount t c
    ∧ ((∀ r : RegionId, regionBank r = c → s.regions[r].state ≠ .arming) → t.refresh.banks[c] = s.refresh.banks[c])
  reached : ∀ n ∈ done, Runs s n → ∃ p, laneOrder t n.lane = some p ∧ LostStop p
  waiting : OrdersPlaced s → ∀ n, Runs s n → Runs t n ∨ n ∈ done
  dropped : OrdersPlaced s → ∀ n ∈ done, Runs s n → ∀ r, armedBy s n r = true → t.regions[r] = Region.become .dropped

theorem OwnersStopped.refl (s : State) : OwnersStopped [] s s where
  entries := .refl s
  slots _ := .inl rfl
  placed := id
  regions _ := .inl rfl
  counts c hk := ⟨hk, fun _ => rfl⟩
  reached n hn := absurd hn (by simp)
  waiting _ n hn := .inl hn
  dropped _ n hn := absurd hn (by simp)

section Turn

variable {done : List OrderName} {s t : State} {n : OrderName}

/-- An order that runs in its lane ran there before. -/
theorem StopsSome.runs (h : StopsSome s t) (hn : Runs t n) : Runs s n := by
  obtain ⟨o, ho, hlife, hseq⟩ := hn
  exact ⟨o, (h.order n.lane).running ho hlife, hlife, hseq⟩

theorem StopsSome.trans {u : State} (h : StopsSome s t) (h' : StopsSome t u) : StopsSome s u where
  entries := h.entries.trans h'.entries
  slots j := by
    obtain hu | ⟨o, p, ho, hlife, hp, hstop⟩ := h'.slots j
    · rw [hu]
      exact h.slots j
    · exact .inr ⟨o, p, (h.slots j).running ho hlife, hlife, hp, hstop⟩

/-- A region whose record was kept is armed as it was. -/
theorem OwnersStopped.armedBy (h : OwnersStopped done s t) {r : RegionId} (hr : t.regions[r] ≠ Region.become .dropped) (n : OrderName) :
    armedBy t n r = armedBy s n r := by
  have hsame : t.regions[r] = s.regions[r] := (h.regions r).resolve_right fun h' => hr h'.1
  rw [Machine.armedBy, Machine.armedBy, regionState, regionState, hsame]

theorem not_armedBy_dropped {r : RegionId} (hr : t.regions[r] = Region.become .dropped) (n : OrderName) : armedBy t n r = false := by
  rw [armedBy, regionState, hr]
  rfl

/-- The stop of an owner drops what it was arming and leaves every other region. -/
theorem OwnersStopped.regions_step (h : OwnersStopped done s t) (r : RegionId) : (stopOwner t n).regions[r] = s.regions[r]
    ∨ ((stopOwner t n).regions[r] = Region.become .dropped ∧ ∃ m ∈ done ++ [n], Machine.armedBy s m r = true ∧ Runs s m) := by
  have hkeep : t.regions[r] = s.regions[r]
      ∨ (t.regions[r] = Region.become .dropped ∧ ∃ m ∈ done ++ [n], Machine.armedBy s m r = true ∧ Runs s m) :=
    (h.regions r).imp_right fun ⟨hdropped, m, hm, hrest⟩ => ⟨hdropped, m, List.mem_append_left _ hm, hrest⟩
  by_cases hruns : Runs t n
  · rw [stopOwner_regions hruns]
    split
    · rename_i harmed
      have hstays : t.regions[r] ≠ Region.become .dropped := fun hdropped =>
        absurd (harmed.symm.trans (not_armedBy_dropped hdropped n)) (by decide)
      exact .inr ⟨rfl, n, by simp, (h.armedBy hstays n).symm.trans harmed, h.toStopsSome.runs hruns⟩
    · exact hkeep
  · rw [stopOwner_stays hruns]
    exact hkeep

/-- A region that is DROPPED stays so. -/
theorem stopOwner_keeps_dropped {r : RegionId} (hr : t.regions[r] = Region.become .dropped) (n : OrderName) :
    (stopOwner t n).regions[r] = Region.become .dropped := by
  by_cases hruns : Runs t n
  · rw [stopOwner_regions hruns, not_armedBy_dropped hr]
    exact hr
  · rw [stopOwner_stays hruns]
    exact hr

/-- Where orders are placed, an owner that stops leaves every other lane's order. -/
theorem Runs.after_stopOwner {m : OrderName} (hm : Runs t m) (ht : OrdersPlaced t) (n : OrderName) : Runs (stopOwner t n) m ∨ m = n := by
  by_cases hruns : Runs t n
  · rw [stopOwner_stops hruns]
    obtain ⟨o, ho, hlife, hseq⟩ := hm
    obtain ⟨x, hx, -, hxseq⟩ := hruns
    by_cases hl : m.lane = n.lane
    · rw [hl, hx] at ho
      cases ho
      exact .inr (by cases m; cases n; cases hl; cases hseq; cases hxseq; rfl)
    · exact .inl ⟨o, (laneSame_toStopping ht hl _).order.trans ho, hlife, hseq⟩
  · rw [stopOwner_stays hruns]
    exact .inl hm

theorem OwnersStopped.reached_step (h : OwnersStopped done s t) {m : OrderName} (hm : m ∈ done ++ [n]) (hruns : Runs s m) :
    ∃ p, laneOrder (stopOwner t n) m.lane = some p ∧ LostStop p := by
  have hstep := (stopOwner_stopsSome t n).order m.lane
  by_cases hdone : m ∈ done
  · obtain ⟨p, hp, hstop⟩ := h.reached m hdone hruns
    exact ⟨p, hstep.lost hp hstop, hstop⟩
  · have heq : m = n := List.mem_singleton.mp ((List.mem_append.mp hm).resolve_left hdone)
    subst heq
    by_cases hnow : Runs t m
    · exact stopOwner_lost hnow
    · obtain hsame | ⟨-, p, -, -, hp, hstop⟩ := h.toStopsSome.order m.lane
      · refine absurd ?_ hnow
        obtain ⟨o, ho, hrest⟩ := hruns
        exact ⟨o, hsame.trans ho, hrest⟩
      · exact ⟨p, hstep.lost hp hstop, hstop⟩

theorem OwnersStopped.step (h : OwnersStopped done s t) (n : OrderName) : OwnersStopped (done ++ [n]) s (stopOwner t n) where
  toStopsSome := h.toStopsSome.trans (stopOwner_stopsSome t n)
  placed hs := (Keeps.after_stopOwner t n).placed (h.placed hs)
  regions := h.regions_step
  counts c hk := by
    obtain ⟨hcount, hsame⟩ := h.counts c hk
    obtain ⟨hcount', hsame'⟩ := stopOwner_hands (n := n) hcount
    refine ⟨hcount', fun hnone => (hsame' fun r hr harming => ?_).trans (hsame hnone)⟩
    obtain hr' | ⟨hdropped, -⟩ := h.regions r
    · exact hnone r hr (hr' ▸ harming)
    · rw [hdropped] at harming
      exact absurd harming (by decide)
  reached _ hm hruns := h.reached_step hm hruns
  waiting hs m hruns := by
    obtain hm | hm := h.waiting hs m hruns
    · exact (hm.after_stopOwner (h.placed hs) n).imp_right fun heq => by simp [heq]
    · exact .inr (List.mem_append_left _ hm)
  dropped hs m hm hruns r harmed := by
    by_cases hdone : m ∈ done
    · exact stopOwner_keeps_dropped (h.dropped hs m hdone hruns r harmed) n
    · have heq : m = n := List.mem_singleton.mp ((List.mem_append.mp hm).resolve_left hdone)
      subst heq
      by_cases hdropped : t.regions[r] = Region.become .dropped
      · exact stopOwner_keeps_dropped hdropped m
      · rw [stopOwner_regions ((h.waiting hs m hruns).resolve_right hdone), h.armedBy hdropped, if_pos harmed]
        rfl

theorem OwnersStopped.foldl (owners : List OrderName) (h : OwnersStopped done s t) :
    OwnersStopped (done ++ owners) s (owners.foldl stopOwner t) := by
  induction owners generalizing done t with
  | nil => simpa using h
  | cons n owners ih =>
    have hturn := ih (h.step n)
    simpa using hturn

end Turn

theorem ownersStopped_foldl (owners : List OrderName) (s : State) : OwnersStopped owners s (owners.foldl stopOwner s) :=
  (OwnersStopped.refl s).foldl owners

end Sys2Proof.Safety
end

section
/-! PROOFS. A tick raises the account of its bank or is a breach (R135, R136, R140, R158, R159). -/

namespace Sys2Proof.Safety

open Sys2Proof.Machine

/-! ## What a bank is shown (R117, R138) -/

theorem refreshLevel_urgent_iff (r : RefreshBank) : refreshLevel r = .urgent ↔ 8 ≤ r.account :=
  ⟨fun h => Int.not_lt.mp fun hlow => refreshLevel_ne_urgent hlow h, refreshLevel_of_ceiling⟩

theorem refreshLevel_due_iff (r : RefreshBank) : refreshLevel r = .due ↔ 4 ≤ r.account ∧ r.account < 8 := by
  refine ⟨fun h => ⟨Int.not_lt.mp fun hlow => ?_, Int.not_le.mp fun hhigh => ?_⟩, fun ⟨h4, h8⟩ => refreshLevel_of_due h8 h4⟩
  · exact absurd ((refreshLevel_of_below hlow).symm.trans h) (by decide)
  · exact absurd ((refreshLevel_of_ceiling hhigh).symm.trans h) (by decide)

theorem retained_eq (st : RegionState) : st.retained = (st == .kept || st == .arming) := by
  cases st <;> rfl

theorem retainedCount_eq (s : State) (b : BankId) : retainedCount s b =
    (List.finRange 8).countP fun g => s.regions[regionOf b g].state == .kept || s.regions[regionOf b g].state == .arming := by
  simp only [retainedCount, regionState, retained_eq]
  rfl

/-! ## A tick of another interval (R139) -/

theorem exec_tick_stale {s : State} {d : TickDue} (h : tickRuns d s = false) : exec (.tick d) s = .next s := execTick_stale h

theorem tickRuns_eq_false_iff (s : State) (d : TickDue) : tickRuns d s = false ↔
    s.refresh.banks[d.bank].timer = none ∨ s.refresh.banks[d.bank].interval ≠ d.interval := by
  rw [tickRuns, Bool.and_eq_false_iff, Option.isSome_eq_false_iff, Option.isNone_iff_eq_none, beq_eq_false_iff_ne]

/-- A hand-over of another k stops the timer or begins a fresh interval (R134). -/
theorem HandedK.restarts {s : State} {b : BankId} {n : Nat} {r : RefreshBank} (h : HandedK s b n r) (hn : n ≠ s.refresh.banks[b].k) :
    r.timer = none ∨ r.interval ≠ s.refresh.banks[b].interval := by
  obtain ⟨-, hzero, hnew⟩ := h
  by_cases h0 : n = 0
  · exact .inl (by rw [hzero hn h0])
  · rw [hnew hn h0]
    cases bankAwake s.banks[b] with
    | true => exact .inr (Nat.succ_ne_self _)
    | false => exact .inl rfl

theorem exec_tick_runs {s : State} {b : BankId} (htimer : s.refresh.banks[b].timer.isSome = true) :
    exec (.tick { bank := b, interval := s.refresh.banks[b].interval }) s = .next (settle s (tickBank b s)) := by
  have hruns : tickRuns { bank := b, interval := s.refresh.banks[b].interval } s = true := by
    rw [tickRuns, htimer, beq_self_eq_true]
    rfl
  exact congrArg Host.Outcome.next (if_pos hruns)

/-! ## A breach (R140, R159) -/

/-- The bank's regions are LOST, its k is 0 and the breach is counted; its ARMING regions' owners are not stopped yet. -/
def breached (b : BankId) (s : State) : State := requestHeaderUpdate (countBreach (handK b (loseRegions b s)))

theorem breach_eq (b : BankId) (s : State) : breach b s = (armingOwners s b).foldl stopOwner (breached b s) := rfl

theorem regionOf_regionSegment (r : RegionId) : regionOf (regionBank r) (regionSegment r) = r := by
  apply Fin.ext
  simp only [regionOf, regionBank, regionSegment]
  omega

theorem mem_armingOwners (s : State) (b : BankId) (n : OrderName) : n ∈ armingOwners s b ↔
    ∃ y : RegionId, regionBank y = b ∧ s.regions[y].state = .arming ∧ s.regions[y].owner = some n := by
  rw [armingOwners, List.mem_filterMap]
  constructor
  · rintro ⟨g, -, hg⟩
    split at hg
    · rename_i harming
      exact ⟨regionOf b g, regionBank_regionOf b g, harming, hg⟩
    · exact absurd hg (by simp)
  · rintro ⟨y, rfl, harming, howner⟩
    have hplace : s.regions[regionOf (regionBank y) (regionSegment y)] = s.regions[y] := getElem_of_eq _ (regionOf_regionSegment y)
    refine ⟨regionSegment y, List.mem_finRange _, ?_⟩
    rw [regionState, hplace, if_pos harming, howner]

section Breached

variable (b : BankId) (s : State)

theorem breached_regions (r : RegionId) : (breached b s).regions[r] =
    if regionBank r = b ∧ (s.regions[r].state = .kept ∨ s.regions[r].state = .arming) then { state := .lost, owner := none, sweep := 0 }
    else s.regions[r] := by
  have hregions : (breached b s).regions = (loseRegions b s).regions := by simp [breached]
  rw [hregions, loseRegions, mapRegions_get]
  simp only [Bool.and_eq_true, beq_iff_eq, RegionState.retained_iff]
  rfl

theorem breached_order (l : Lane) : laneOrder (breached b s) l = laneOrder s l := laneOrder_congr (by simp [breached]) (by simp [breached]) l

theorem runs_breached (n : OrderName) : Runs (breached b s) n ↔ Runs s n := by
  rw [Runs, Runs, breached_order]

theorem armedBy_breached (n : OrderName) (r : RegionId) : armedBy (breached b s) n r = true ↔ regionBank r ≠ b ∧ armedBy s n r = true := by
  rw [armedBy_iff, armedBy_iff, breached_regions]
  by_cases hr : regionBank r = b ∧ (s.regions[r].state = .kept ∨ s.regions[r].state = .arming)
  · rw [if_pos hr]
    exact ⟨fun h => absurd h.1 (by decide), fun h => absurd hr.1 h.1⟩
  · rw [if_neg hr]
    exact ⟨fun h => ⟨fun hb => hr ⟨hb, .inr h.1⟩, h⟩, fun h => h.2⟩

theorem breached_placed (hs : OrdersPlaced s) : OrdersPlaced (breached b s) := by
  have hcount : Keeps (handK b (loseRegions b s)) (countBreach (handK b (loseRegions b s))) :=
    .of_same (by simp [SameControl, SameOrderSide, countBreach]) (by simp [SameCells, countBreach]) (by simp [countBreach])
  exact ((((Keeps.after_mapRegions _ s).trans (.after_handK b _)).trans hcount).trans (.after_requestHeaderUpdate _)).placed hs

theorem breached_refresh_other {c : BankId} (hc : c ≠ b) : (breached b s).refresh.banks[c] = s.refresh.banks[c] := by
  have hrefresh : (breached b s).refresh.banks = (handK b (loseRegions b s)).refresh.banks := by simp [breached, countBreach, setAlert]
  rw [hrefresh, handK_bank_other _ _ _ hc]
  simp only [loseRegions_frame]

/-- No region of the bank is retained any more. -/
theorem retainedCount_breached : retainedCount (breached b s) b = 0 := by
  refine retainedCount_eq_zero fun r hr => ?_
  rw [regionState, breached_regions]
  split
  · rfl
  · rename_i hstays
    exact Bool.eq_false_iff.mpr fun h => hstays ⟨hr, (RegionState.retained_iff _).mp h⟩

theorem breached_handedK : HandedK s b 0 (breached b s).refresh.banks[b] := by
  have hrefresh : (breached b s).refresh.banks = (handK b (loseRegions b s)).refresh.banks := by simp [breached, countBreach, setAlert]
  have hcount : retainedCount (loseRegions b s) b = 0 := by
    rw [← retainedCount_breached b s]
    exact retainedCount_congr (by simp [breached]) b
  rw [hrefresh, handK_bank_same, hcount]
  exact (handedK_refreshWithK (loseRegions b s) b 0).congr (by simp) (by simp) (by simp)

theorem retainedCount_breached_other {c : BankId} (hc : c ≠ b) : retainedCount (breached b s) c = retainedCount s c := by
  refine retainedCount_eq_of_retained fun g => ?_
  rw [regionState, breached_regions, if_neg fun h => hc (by rw [← h.1, regionBank_regionOf])]
  rfl

theorem headerAsked_breached : HeaderAsked (breached b s) := headerAsked_requestHeaderUpdate _

end Breached

/-- An account above 0 is that of a bank with a k above 0 (R144). -/
theorem k_ne_zero_of_timer {s : State} {b : BankId} (htimer : s.refresh.banks[b].timer.isSome = true) (hlegal : BankRefreshLegal s b) :
    s.refresh.banks[b].k ≠ 0 := by
  obtain ⟨-, -, -, hrest⟩ := hlegal
  intro hk
  obtain ⟨-, hstopped⟩ := hrest (.inl hk)
  exact absurd (htimer.symm.trans (congrArg Option.isSome hstopped)) (by decide)

/-- The account of the bank of a breach (R134, R140). -/
theorem breached_refresh {s : State} {b : BankId} (hk : s.refresh.banks[b].k ≠ 0) : (breached b s).refresh.banks[b] =
    { s.refresh.banks[b] with
      account := 0, k := 0, timer := none, void := s.refresh.banks[b].void || s.banks[b].state == .refreshing } := by
  obtain ⟨-, hzero, -⟩ := breached_handedK b s
  exact hzero (Ne.symm hk) rfl

/-- The bank's account once its tick has been counted (R136). -/
def tickRaised (b : BankId) (s : State) : State := setRefresh b (raiseAccount s.refresh.tempClass s.refresh.banks[b]) s

theorem tickBank_raises {s : State} {b : BankId} (h : s.refresh.banks[b].account < 8) :
    tickBank b s = indicationChanged (indication s b) b (tickRaised b s) := if_pos h

theorem tickBank_breaches {s : State} {b : BankId} (h : 8 ≤ s.refresh.banks[b].account) : tickBank b s = breach b s := if_neg (Int.not_lt.mpr h)

theorem ownersStopped_breach (b : BankId) (s : State) : OwnersStopped (armingOwners s b) (breached b s) (breach b s) :=
  ownersStopped_foldl (armingOwners s b) (breached b s)

theorem breach_keeps (b : BankId) (s : State) : (breach b s).port = (breached b s).port ∧ (breach b s).reporting = (breached b s).reporting
    ∧ (breach b s).refresh.breaches = (breached b s).refresh.breaches := by
  rw [breach_eq]
  refine List.foldlRecOn (motive := fun t : State => t.port = (breached b s).port ∧ t.reporting = (breached b s).reporting
    ∧ t.refresh.breaches = (breached b s).refresh.breaches) _ _ ⟨rfl, rfl, rfl⟩ fun t ht n _ => ?_
  simpa using ht

section Breach

variable {b : BankId} {s : State} {r : RegionId}

theorem breached_regions_other (hr : regionBank r ≠ b) : (breached b s).regions[r] = s.regions[r] := by
  rw [breached_regions, if_neg fun h => hr h.1]

/-- A region that is not ARMING under an owner that the breach stops is as the breach of the bank leaves it. -/
theorem breach_regions_of_not_armed (h : ∀ n ∈ armingOwners s b, Runs s n → regionBank r ≠ b → armedBy s n r = false) :
    (breach b s).regions[r] = (breached b s).regions[r] := by
  refine ((ownersStopped_breach b s).regions r).resolve_right fun ⟨_, n, hn, harmed, hruns⟩ => ?_
  obtain ⟨hother, harmed⟩ := (armedBy_breached b s n r).mp harmed
  exact absurd (harmed.symm.trans (h n hn ((runs_breached b s n).mp hruns) hother)) (by decide)

/-- The regions of the bank of a breach (R159). -/
theorem breach_regions_own (hr : regionBank r = b) : (breach b s).regions[r] =
    if s.regions[r].state = .kept ∨ s.regions[r].state = .arming then { state := .lost, owner := none, sweep := 0 } else s.regions[r] := by
  rw [breach_regions_of_not_armed fun _ _ _ hother => absurd hr hother, breached_regions]
  simp only [hr, true_and]

/-- A region of another bank that is not ARMING under an owner that the breach stops. -/
theorem breach_regions_kept (hr : regionBank r ≠ b) (h : ∀ n ∈ armingOwners s b, Runs s n → armedBy s n r = false) :
    (breach b s).regions[r] = s.regions[r] := by
  rw [breach_regions_of_not_armed fun n hn hruns _ => h n hn hruns, breached_regions_other hr]

/-- Where orders are placed the regions that the stopped owners were arming go to DROPPED (R158). -/
theorem breach_regions_dropped (hs : OrdersPlaced s) (hr : regionBank r ≠ b) {n : OrderName} (hn : n ∈ armingOwners s b) (hruns : Runs s n)
    (harmed : armedBy s n r = true) : (breach b s).regions[r] = { state := .dropped, owner := none, sweep := 0 } :=
  (ownersStopped_breach b s).dropped (breached_placed b s hs) n hn ((runs_breached b s n).mpr hruns) r ((armedBy_breached b s n r).mpr ⟨hr, harmed⟩)

theorem breach_counts {c : BankId} (hc : c ≠ b) (hk : s.refresh.banks[c].k = retainedCount s c) :
    (breach b s).refresh.banks[c].k = retainedCount (breach b s) c
      ∧ ((∀ r : RegionId, regionBank r = c → s.regions[r].state ≠ .arming) → (breach b s).refresh.banks[c] = s.refresh.banks[c]) := by
  have hsame := breached_refresh_other b s hc
  obtain ⟨hcount, hkept⟩ := (ownersStopped_breach b s).counts c (by rw [hsame, retainedCount_breached_other b s hc, hk])
  refine ⟨hcount, fun hnone => (hkept fun r hr => ?_).trans hsame⟩
  rw [breached_regions_other (hr ▸ hc)]
  exact hnone r hr

/-- The account of the bank of a breach (R140). -/
theorem breach_refresh (hk : s.refresh.banks[b].k ≠ 0) : (breach b s).refresh.banks[b] =
    { s.refresh.banks[b] with
      account := 0, k := 0, timer := none, void := s.refresh.banks[b].void || s.banks[b].state == .refreshing } := by
  have hbank := breached_refresh hk
  obtain ⟨-, hkept⟩ := (ownersStopped_breach b s).counts b (by rw [hbank, retainedCount_breached])
  refine (hkept fun r hr => ?_).trans hbank
  rw [breached_regions]
  split
  · exact nofun
  · rename_i hstays
    exact fun harming => hstays ⟨hr, .inr harming⟩

end Breach

/-- Settles O49: a tick raises the account, or is a breach. -/
theorem tickRaisesOrBreaches : Obligations.TickRaisesOrBreaches := by
  refine ⟨rfl, fun s b => ⟨rfl, refreshLevel_urgent_iff _, refreshLevel_due_iff _, pullInAllowed_iff _, retainedCount_eq s b⟩,
    fun s b n h => exec_tick_stale ((tickRuns_eq_false_iff _ _).mpr h),
    fun s t b n hhanded hn => exec_tick_stale ((tickRuns_eq_false_iff _ _).mpr (hhanded.restarts hn)), fun s b htimer hlow => ?_,
    fun s b htimer hhigh hlegal => ?_⟩
  · refine ⟨tickRaised b s, rfl, fun hsame => ?_, fun hmoved => ?_⟩
    · rw [exec_tick_runs htimer, tickBank_raises hlow, indicationChanged, if_pos hsame]
    · rw [exec_tick_runs htimer, tickBank_raises hlow, indicationChanged, if_neg hmoved]
  · obtain ⟨hport, hreporting, hbreaches⟩ := breach_keeps b s
    have hbank := breach_refresh (k_ne_zero_of_timer htimer hlegal)
    refine ⟨breach b s, (exec_tick_runs htimer).trans (by rw [tickBank_breaches hhigh]), fun r => breach_regions_own, fun r hr hstate => ?_,
      by rw [hbank], by rw [hbank], by rw [hbank], fun hstate => ?_, ?_, by simp, ?_, by simp,
      (headerAsked_breached b s).congr (by simp [breached]) (by rw [hreporting]), fun l o ho hlife ⟨y, hy, hstate, howner⟩ => ?_,
      fun hs r hr hstate => ⟨fun ⟨l, o, y, ho, hlife, howner, hy, hstateY, hsame⟩ => ?_, fun hnone => ?_⟩,
      fun c => breach_counts, by simp, by simp, by simp, by simp⟩
    · exact breach_regions_kept hr fun n _ _ => Bool.eq_false_iff.mpr fun harmed => hstate ((armedBy_iff s n r).mp harmed).1
    · rw [hbank, hstate]
      exact Bool.or_true _
    · rw [hbreaches]
      simp [breached, countBreach, setAlert]
    · rw [hport]
      simp [breached, countBreach, setAlert]
    · obtain ⟨p, hp, hstop⟩ := (ownersStopped_breach b s).reached { lane := l, seq := o.seq } ((mem_armingOwners s b _).mpr ⟨y, hy, hstate, howner⟩)
        ((runs_breached b s _).mpr ⟨o, ho, hlife, rfl⟩)
      exact ⟨p, hp, hstop⟩
    · exact breach_regions_dropped hs hr ((mem_armingOwners s b _).mpr ⟨y, hy, hstateY, hsame.trans howner⟩) ⟨o, ho, hlife, rfl⟩
        ((armedBy_iff s _ r).mpr ⟨hstate, howner⟩)
    · refine breach_regions_kept hr fun n hn ⟨o, ho, hlife, hseq⟩ => Bool.eq_false_iff.mpr fun harmed => ?_
      obtain ⟨y, hy, hstateY, howner⟩ := (mem_armingOwners s b n).mp hn
      obtain ⟨-, hownerR⟩ := (armedBy_iff s n r).mp harmed
      exact hnone n.lane o y ho hlife (by rw [hseq, hownerR]) hy hstateY (howner.trans hownerR.symm)

end Sys2Proof.Safety
end
